-- ==== Sys2Proof/Word.lean ====
section
/-! DEFINITION. The words that cross the ports of the sequencer: the byte of the bus and of the buffer, the 16-bit
command and value word, and the status of a response. -/

namespace Sys2Proof

/-- A byte, bits 7 to 0 (R6): every bus exchange and every register is this wide (R5). -/
abbrev Byte := BitVec 8

/-- A 16-bit word: the command word (R60) and the value of a response (R66). Bit 15 is the most significant. -/
abbrev Word := BitVec 16

/-- The status field of a response (R66). Codes 6 and 7 are never produced, so they have no constructor (U12). -/
inductive Status where
  | ok
  | errNotReady
  | errUnsupported
  | errIllegalOp
  | errIllegalReg
  | errConstructed
  deriving DecidableEq, Repr, Inhabited

end Sys2Proof
end

