-- ==== Sys2Proof/Config.lean ====
section
/-! DEFINITION. The parameters of the sequencer (R5): the fixed ones as definitions, the ones that the platform binds as
the fields of a plain record, and the free values, which have no body. -/

namespace Sys2Proof

/-- The parameters that the platform binds once, before the first command (R5, R184): the six register addresses and
the five pin identifiers, which the source leaves OPEN (D4, D18), and the two delays, which are overridable (R194).
A state carries its binding, so a statement about every state is a statement about every binding. -/
structure Config where
  addrMotion : Byte
  addrDeltaX : Byte
  addrDeltaY : Byte
  addrSqual  : Byte
  addrPixel  : Byte
  addrMode   : Byte
  pinNreset  : Nat
  pinNcs     : Nat
  pinMosi    : Nat
  pinMiso    : Nat
  pinSck     : Nat
  tStartupMs : Nat
  tSettleMs  : Nat
  deriving DecidableEq, Repr

namespace Config

/-- The six register addresses, in the order of `rsel` (R41). -/
def addresses (c : Config) : List Byte :=
  [c.addrMotion, c.addrDeltaX, c.addrDeltaY, c.addrSqual, c.addrPixel, c.addrMode]

/-- The five pin identifiers (R5). -/
def pins (c : Config) : List Nat :=
  [c.pinNreset, c.pinNcs, c.pinMosi, c.pinMiso, c.pinSck]

/-- A premise on a binding, never a rule: the six registers are distinct (R41) and the five pins are distinct (D18). -/
abbrev Distinct (c : Config) : Prop :=
  c.addresses.Nodup ∧ c.pins.Nodup

/-- `FRAME_LEN` (R5): samples in one pixel frame. -/
def frameLen : Nat := 225

/-- `FILLER` (R5): the byte sent during the value exchange of a read. -/
def filler : Byte := 0x00#8

/-- `REWIND` (R5): the byte written to the pixel-stream register before a frame. -/
def rewind : Byte := 0x00#8

/-- `MOTION_MIN` (R5): the least raw motion value that means motion. -/
def motionMin : Nat := 128

/-- `CPI_LOW` (R5), in counts per inch. -/
def cpiLow : Word := 500#16

/-- `CPI_HIGH` (R5), in counts per inch. -/
def cpiHigh : Word := 1000#16

/-- `SQUAL_MAX` (R5): top of the documented surface-quality range. The sequencer enforces it nowhere (R107). -/
def squalMax : Nat := 144

/-- The value an OPEN register address has at reset, by `rsel` (R41, D4): no body, so nothing is assumed of it. Log 5. -/
opaque openAddr : Fin 6 → Byte

/-- The value an OPEN pin identifier has at reset, in the order of `pins` (D18): no body. Log 5. -/
opaque openPin : Fin 5 → Nat

/-- The binding at reset: every OPEN parameter without a known value, the two delays at the defaults of R5. Log 5. -/
def atReset : Config where
  addrMotion := openAddr 0
  addrDeltaX := openAddr 1
  addrDeltaY := openAddr 2
  addrSqual  := openAddr 3
  addrPixel  := openAddr 4
  addrMode   := openAddr 5
  pinNreset  := openPin 0
  pinNcs     := openPin 1
  pinMosi    := openPin 2
  pinMiso    := openPin 3
  pinSck     := openPin 4
  tStartupMs := 1000
  tSettleMs  := 750

/-- Free value: the byte the peripheral returns when the list of inputs is used up (R51). Log 3. -/
opaque freeXferByte : Nat → Byte

/-- Free value: what a read of `areg` gives where it holds no value, which no run reaches (R182). Log 6. -/
opaque unwrittenAreg : Nat → Byte

/-- Free value: the same for `dreg`. Log 6. -/
opaque unwrittenDreg : Nat → Byte

/-- Free value: the same for `rx`. Log 6. -/
opaque unwrittenRx : Nat → Byte

/-- Free value: the same for `idx`. Log 6. -/
opaque unwrittenIdx : Nat → Byte

/-- Free value: the same for `st`. Log 6. -/
opaque unwrittenSt : Nat → Status

/-- Free value: the same for `val`. Log 6. -/
opaque unwrittenVal : Nat → Word

/-- Free value: the result of a read that ends under an opcode that makes no read, which no run reaches (R87). Log 7. -/
opaque freeResult : Nat → Word

end Config

end Sys2Proof
end

