-- ==== Sys2Proof/Machine/State.lean ====
section
/-! DEFINITION. The state of the sequencer (R10), the events of its ports (R24), what the environment supplies, the
reasons a step can stop, and power-on reset (R180). -/

namespace Sys2Proof.Machine

/-- The session state (R11). -/
inductive Session where
  | uninitialized
  | inReset
  | ready
  deriving DecidableEq, Repr

/-- The phase, this hardware's program counter: exactly these 26 values (R13). -/
inductive Phase where
  | idle
  | con1 | con2 | con3 | con4 | con5 | con6 | con7 | con8 | con9
  | rst1 | rst2 | rst3 | rst4
  | wr1 | wr2 | wr3 | wr4
  | rd1 | rd2 | rd3 | rd4 | rd5 | rd6
  | pfs
  | done
  deriving DecidableEq, Repr

/-- The level of a driven pin (R24). -/
inductive Level where
  | low
  | high
  deriving DecidableEq, Repr

/-- The direction of a pin (R24). -/
inductive Direction where
  | input
  | output
  deriving DecidableEq, Repr

/-- The clock mode of the byte-transfer peripheral: clock polarity 1, clock phase 1 (R21). -/
inductive ClockMode where
  | mode11
  deriving DecidableEq, Repr

/-- The pins the sequencer makes events on (R20). `PIN_SCK` is not among them: it has no state element and no event. -/
inductive Pin where
  | nreset
  | ncs
  | mosi
  | miso
  deriving DecidableEq, Repr

/-- The eight kinds of event (R24). Every step makes exactly one. -/
inductive Event where
  /-- `Dir(p, d)`: set pin `p` to direction `d`. -/
  | dir (p : Pin) (d : Direction)
  /-- `Lvl(p, l)`: drive pin `p` to level `l`. -/
  | lvl (p : Pin) (l : Level)
  /-- `Cfg(m)`: configure the clock mode of the byte-transfer peripheral. -/
  | cfg (m : ClockMode)
  /-- `Xfer(o) -> i`: send byte `o`, receive byte `i`. -/
  | xfer (o i : Byte)
  /-- `Sleep(t)`: wait at least `t` milliseconds. -/
  | sleep (t : Nat)
  /-- `Acc(c)`: accept the command word `c`. -/
  | acc (c : Word)
  /-- `Buf(i, v)`: store `v` into slot `i` of the caller's pixel buffer. -/
  | buf (i v : Byte)
  /-- `Rsp(s, w)`: respond with status `s` and value `w`. -/
  | rsp (s : Status) (w : Word)
  deriving DecidableEq, Repr

/-- The caller's pixel buffer: (slot, byte) pairs, slots strictly rising (`Memory.wf`). An unlisted slot holds no
value. Log 9. -/
abbrev Memory := List Host.Cell

/-- The five refusals of a command (R161). -/
inductive CmdError where
  | illegalOp
  | illegalReg
  | unsupported
  | constructed
  | notReady
  deriving DecidableEq, Repr

/-- The whole state. The fields `session` to `clkmode` are the thirteen elements of R10, `none` being the value that
rule gives an element that nothing has written; the fields after them are the binding of the parameters, what the
environment supplies, and what it has been given (R23): no state of the sequencer. -/
structure State where
  /-- R11. -/
  session   : Session
  /-- R13. -/
  phase     : Phase
  /-- R12. -/
  op        : Option (BitVec 4)
  /-- R14. -/
  areg      : Option Byte
  /-- R14. -/
  dreg      : Option Byte
  /-- R15. -/
  rx        : Option Byte
  /-- R16. -/
  idx       : Option Byte
  /-- R17. -/
  st        : Option Status
  /-- R17. -/
  val       : Option Word
  /-- R18. -/
  ncs       : Option Level
  /-- R19. -/
  nreset    : Option Level
  /-- `dir[PIN_NRESET]` (R20). -/
  dirNreset : Option Direction
  /-- `dir[PIN_NCS]` (R20). -/
  dirNcs    : Option Direction
  /-- `dir[PIN_MOSI]` (R20). -/
  dirMosi   : Option Direction
  /-- `dir[PIN_MISO]` (R20). -/
  dirMiso   : Option Direction
  /-- R21. -/
  clkmode   : Option ClockMode
  /-- The binding of the parameters (R5, R184). Log 5. -/
  cfg       : Config
  /-- The command words the host has still to present, in order (R26, R69). Log 1. -/
  commands  : List Word
  /-- The bytes the peripheral will return, one for each `Xfer` (R51). Log 3. -/
  xferIn    : List Byte
  /-- The caller's pixel buffer (R28). Log 9. -/
  buf       : Memory
  /-- The events so far, newest first (R8). Log 8. -/
  trace     : List Event
  /-- The model's own counter: how many events have been made; the free values are applied to it. Log 4. -/
  eventNo   : Nat
  deriving DecidableEq, Repr

/-- Why a step stops. -/
inductive Fault where
  /-- Raised by `step` in phase IDLE when no command is presented: "the sequencer has no step: this is the quiescent,
  final condition of a run" (R26). Safe. Log 2. -/
  | quiescent
  /-- Raised by step PFS when `idx` is above 224: the buffer has the slots 0 to 224 and no others (R28, R40). No run
  reaches it (R31 item 9). Safe. Log 9. -/
  | noSuchSlot (i : Byte)
  deriving DecidableEq, Repr

/-- Why an instruction has no meaning. -/
inductive Refusal where
  /-- Raised by an arm of `exec` whose instruction is not modelled yet; no arm raises it now. Safe. -/
  | notModelled (mnemonic : String)
  deriving DecidableEq, Repr

/-- Power-on reset (R180): session Uninitialized, phase IDLE, every other element without a value, no event. The
environment's fields are empty (logs 1, 3, 9), the counter is 0 (log 4), and the binding is `Config.atReset` (log 5). -/
def State.reset : State where
  session   := .uninitialized
  phase     := .idle
  op        := none
  areg      := none
  dreg      := none
  rx        := none
  idx       := none
  st        := none
  val       := none
  ncs       := none
  nreset    := none
  dirNreset := none
  dirNcs    := none
  dirMosi   := none
  dirMiso   := none
  clkmode   := none
  cfg       := Config.atReset
  commands  := []
  xferIn    := []
  buf       := []
  trace     := []
  eventNo   := 0

end Sys2Proof.Machine
end

