-- ==== Sys2Proof/Machine/Flags.lean ====
section
/-! DEFINITION. There is no condition-code register and no command reads a flag (R22): this file holds the two derived
predicates of R22 and the sub-states of Ready that R11 and R140 name. -/

namespace Sys2Proof.Machine

/-- `busy` (R22): an operation is in progress. -/
def busy (s : State) : Bool := decide (s.phase ≠ .idle)

/-- `ready` (R22): the session is Ready. -/
def ready (s : State) : Bool := decide (s.session = .ready)

/-- The opcode of PIXFRAME (R63), which steps WR4 and RD6 look for (R83, R87). -/
def opPixframe : BitVec 4 := 0xA#4

/-- "idle" (R11): Ready, and waiting for a command. -/
def idleReady (s : State) : Bool := ready s && !busy s

/-- "streaming pixels" (R11, R140): Ready, with a PIXFRAME in progress. -/
def streaming (s : State) : Bool := ready s && busy s && decide (s.op = some opPixframe)

end Sys2Proof.Machine
end

