-- ==== Sys2Proof/Syntax.lean ====
section
/-! DEFINITION. The command set (R63): one constructor for each of the eleven rows of the opcode table. -/

namespace Sys2Proof

/-- The register selector `rsel` of WRREG and RDREG (R62): six named registers and two reserved values. -/
inductive RegSel where
  | motion
  | deltaX
  | deltaY
  | squal
  | pixel
  | mode
  | reserved6
  | reserved7
  deriving DecidableEq, Repr

/-- Is this one of the two reserved selectors (R62)? -/
def RegSel.isReserved : RegSel → Bool
  | .reserved6 | .reserved7 => true
  | .motion | .deltaX | .deltaY | .squal | .pixel | .mode => false

/-- A command (R63). The bits a command does not use select nothing, yet an error response reports them (R61), so
they are kept: `z` is bit 11, `unused` is all that is left below the opcode or the selector. Log 16. -/
inductive Instr where
  | construct (unused : BitVec 12)
  | reset     (unused : BitVec 12)
  | wrreg     (z : BitVec 1) (sel : RegSel) (data : Byte)
  | rdreg     (z : BitVec 1) (sel : RegSel) (unused : Byte)
  | motion    (unused : BitVec 12)
  | deltax    (unused : BitVec 12)
  | deltay    (unused : BitVec 12)
  | squal     (unused : BitVec 12)
  | resmode   (unused : BitVec 12)
  | pixframe  (unused : BitVec 12)
  | isatt     (unused : BitVec 12)
  deriving DecidableEq, Repr

end Sys2Proof
end

