-- ==== Sys2Proof/WellFormed.lean ====
section
/-! DEFINITION. The commands an assembler can write (R61, R62, R69): canonical, with a named register. The sequencer
gives the others their meaning too: unused bits are ignored, a reserved selector is refused in the response. -/

namespace Sys2Proof

namespace Instr

/-- The same command with every unused bit zero: the canonical form of R61. -/
def canonical : Instr → Instr
  | .construct _     => .construct 0
  | .reset _         => .reset 0
  | .wrreg _ sel d   => .wrreg 0 sel d
  | .rdreg _ sel _   => .rdreg 0 sel 0
  | .motion _        => .motion 0
  | .deltax _        => .deltax 0
  | .deltay _        => .deltay 0
  | .squal _         => .squal 0
  | .resmode _       => .resmode 0
  | .pixframe _      => .pixframe 0
  | .isatt _         => .isatt 0

/-- Check 1 (R61): every unused field is zero. -/
def isCanonical (i : Instr) : Bool :=
  decide (i.canonical = i)

/-- Check 2 (R62): a selector that the command uses names one of the six registers. -/
def selectorNamed : Instr → Bool
  | .wrreg _ sel _ | .rdreg _ sel _ => !sel.isReserved
  | .construct _ | .reset _ | .motion _ | .deltax _ | .deltay _ | .squal _ | .resmode _
  | .pixframe _ | .isatt _ => true

/-- The commands that R69's assembler syntax can express. -/
def wellFormed (i : Instr) : Bool :=
  i.isCanonical && i.selectorNamed

end Instr

end Sys2Proof
end

