-- ==== Sys2Proof/Decode.lean ====
section
/-! DEFINITION. The decoder (R60 to R63, R67) and, after it, the encoder written from the same table, the numbering of
the opcode table, and the assembler's spelling (R69). -/

namespace Sys2Proof

/-- Why a word is no command: its opcode is reserved (R67). -/
inductive DecodeError where
  | reservedOpcode (op : BitVec 4)
  deriving DecidableEq, Repr

/-- `op`, bits 15:12 (R60). -/
def opField (c : Word) : BitVec 4 := c.extractLsb' 12 4

/-- `z`, bit 11 (R60). -/
def zField (c : Word) : BitVec 1 := c.extractLsb' 11 1

/-- `rsel`, bits 10:8 (R60). -/
def rselField (c : Word) : BitVec 3 := c.extractLsb' 8 3

/-- `data`, bits 7:0 (R60). -/
def dataField (c : Word) : Byte := c.extractLsb' 0 8

/-- Bits 11:0: all that stands below the opcode. -/
def restField (c : Word) : BitVec 12 := c.extractLsb' 0 12

/-- The selector named by three bits (R62). -/
def RegSel.ofBits (r : BitVec 3) : RegSel :=
  match r.toNat with
  | 0 => .motion
  | 1 => .deltaX
  | 2 => .deltaY
  | 3 => .squal
  | 4 => .pixel
  | 5 => .mode
  | 6 => .reserved6
  | _ => .reserved7

/-- The decoder: `op` alone selects the command (R61, R63); a reserved opcode is rejected by name (R67). -/
def decode (c : Word) : Except DecodeError Instr :=
  match (opField c).toNat with
  | 0x1 => .ok (.construct (restField c))
  | 0x2 => .ok (.reset (restField c))
  | 0x3 => .ok (.wrreg (zField c) (RegSel.ofBits (rselField c)) (dataField c))
  | 0x4 => .ok (.rdreg (zField c) (RegSel.ofBits (rselField c)) (dataField c))
  | 0x5 => .ok (.motion (restField c))
  | 0x6 => .ok (.deltax (restField c))
  | 0x7 => .ok (.deltay (restField c))
  | 0x8 => .ok (.squal (restField c))
  | 0x9 => .ok (.resmode (restField c))
  | 0xA => .ok (.pixframe (restField c))
  | 0xB => .ok (.isatt (restField c))
  | _   => .error (.reservedOpcode (opField c))

/-- The three bits of a selector (R62). -/
def RegSel.toBits : RegSel → BitVec 3
  | .motion    => 0#3
  | .deltaX    => 1#3
  | .deltaY    => 2#3
  | .squal     => 3#3
  | .pixel     => 4#3
  | .mode      => 5#3
  | .reserved6 => 6#3
  | .reserved7 => 7#3

/-- The opcode of a command (R63). -/
def Instr.opcode : Instr → BitVec 4
  | .construct _ => 0x1#4
  | .reset _     => 0x2#4
  | .wrreg _ _ _ => 0x3#4
  | .rdreg _ _ _ => 0x4#4
  | .motion _    => 0x5#4
  | .deltax _    => 0x6#4
  | .deltay _    => 0x7#4
  | .squal _     => 0x8#4
  | .resmode _   => 0x9#4
  | .pixframe _  => 0xA#4
  | .isatt _     => 0xB#4

/-- The bits of a command below its opcode (R60). -/
def Instr.operandBits : Instr → BitVec 12
  | .wrreg z sel d => z ++ sel.toBits ++ d
  | .rdreg z sel u => z ++ sel.toBits ++ u
  | .construct u | .reset u | .motion u | .deltax u | .deltay u | .squal u | .resmode u
  | .pixframe u | .isatt u => u

/-- The encoder: the opcode in bits 15:12, the operand bits below it (R60, R63). -/
def encode (i : Instr) : Word :=
  i.opcode ++ i.operandBits

/-- What the decoder reads from an instruction whose bits are `w`, numbered as the opcode table numbers them. A word
has 16 bits (R60); a number that needs more is no word. Log 17. -/
def decodeTableWord (nbits w : Nat) : Option Instr :=
  let v := w % 2 ^ nbits
  if v < 2 ^ 16 then
    match decode (BitVec.ofNat 16 v) with
    | .ok i => some i
    | .error _ => none
  else none

/-- The mnemonic of a command (R63). -/
def Instr.mnemonic : Instr → String
  | .construct _ => "CONSTRUCT"
  | .reset _     => "RESET"
  | .wrreg _ _ _ => "WRREG"
  | .rdreg _ _ _ => "RDREG"
  | .motion _    => "MOTION"
  | .deltax _    => "DELTAX"
  | .deltay _    => "DELTAY"
  | .squal _     => "SQUAL"
  | .resmode _   => "RESMODE"
  | .pixframe _  => "PIXFRAME"
  | .isatt _     => "ISATT"

/-- The assembler's name of a register (R62); a reserved selector has none. -/
def RegSel.name : RegSel → Option String
  | .motion    => some "MOTION"
  | .deltaX    => some "DELTA_X"
  | .deltaY    => some "DELTA_Y"
  | .squal     => some "SQUAL"
  | .pixel     => some "PIXEL"
  | .mode      => some "MODE"
  | .reserved6 => none
  | .reserved7 => none

/-- How R69 writes a command, the immediate in decimal; none where the syntax cannot express it. -/
def Instr.toAsm (i : Instr) : Option String :=
  if i.wellFormed then
    match i with
    | .wrreg _ sel d => sel.name.map fun r => i.mnemonic ++ " " ++ r ++ ", " ++ toString d.toNat
    | .rdreg _ sel _ => sel.name.map fun r => i.mnemonic ++ " " ++ r
    | .construct _ | .reset _ | .motion _ | .deltax _ | .deltay _ | .squal _ | .resmode _
    | .pixframe _ | .isatt _ => some i.mnemonic
  else none

end Sys2Proof
end

