-- ==== Sys2Proof/Machine/Operands.lean ====
section
/-! DEFINITION. Operand forms and result forms: the address a selector stands for (R62), the notations of R6, the result
function of each reading command (R66, R87), and the numeric codes (R11, R13, R66). -/

namespace Sys2Proof

/-- `ADDR[rsel]` (R62): the address byte of a selector; a reserved selector has none. -/
def RegSel.addr (cfg : Config) : RegSel → Option Byte
  | .motion    => some cfg.addrMotion
  | .deltaX    => some cfg.addrDeltaX
  | .deltaY    => some cfg.addrDeltaY
  | .squal     => some cfg.addrSqual
  | .pixel     => some cfg.addrPixel
  | .mode      => some cfg.addrMode
  | .reserved6 => none
  | .reserved7 => none

/-- The status code (R66). -/
def Status.code : Status → BitVec 3
  | .ok             => 0#3
  | .errNotReady    => 1#3
  | .errUnsupported => 2#3
  | .errIllegalOp   => 3#3
  | .errIllegalReg  => 4#3
  | .errConstructed => 5#3

namespace Machine

/-- `zext_16(v)` (R6): `0x00 ++ v`. -/
def zext16 (v : Byte) : Word := 0x00#8 ++ v

/-- `sext_16(v)` (R6): bit 7 repeated 8 times, then `v`. -/
def sext16 (v : Byte) : Word := BitVec.replicate 8 (v.extractLsb' 7 1) ++ v

/-- `s8(v)` (R6): the two's-complement reading of a byte. -/
def s8 (v : Byte) : Int :=
  if v.toNat ≤ 127 then (v.toNat : Int) else (v.toNat : Int) - 256

/-- RDREG: `zext_16(rx)` (R85). -/
def resultRdreg (v : Byte) : Word := zext16 v

/-- MOTION: 1 when the unsigned byte is `MOTION_MIN` or more, else 0 (R101, R102). -/
def resultMotion (v : Byte) : Word :=
  if Config.motionMin ≤ v.toNat then 1#16 else 0#16

/-- DELTAX: `sext_16(rx)` (R103). -/
def resultDeltax (v : Byte) : Word := sext16 v

/-- DELTAY: `sext_16(rx)` (R105). -/
def resultDeltay (v : Byte) : Word := sext16 v

/-- SQUAL: the raw byte, neither clamped nor checked (R107). -/
def resultSqual (v : Byte) : Word := zext16 v

/-- RESMODE: 500 for the byte 0, 1000 for every other (R109). -/
def resultResmode (v : Byte) : Word :=
  if v = 0x00#8 then Config.cpiLow else Config.cpiHigh

/-- `result(op, rx)` (R87): by the opcode, none for an opcode that makes no read. -/
def result (op : BitVec 4) (v : Byte) : Option Word :=
  match op.toNat with
  | 0x4 => some (resultRdreg v)
  | 0x5 => some (resultMotion v)
  | 0x6 => some (resultDeltax v)
  | 0x7 => some (resultDeltay v)
  | 0x8 => some (resultSqual v)
  | 0x9 => some (resultResmode v)
  | _   => none

/-- The 19-bit response word (R66): status in bits 18:16, value in bits 15:0. -/
def responseWord (s : Status) (w : Word) : BitVec 19 := s.code ++ w

/-- The status that reports a refusal (R161). -/
def CmdError.status : CmdError → Status
  | .illegalOp   => .errIllegalOp
  | .illegalReg  => .errIllegalReg
  | .unsupported => .errUnsupported
  | .constructed => .errConstructed
  | .notReady    => .errNotReady

/-- The numeric code of a session state (R11, D15); 3 is never produced. -/
def Session.code : Session → BitVec 2
  | .uninitialized => 0#2
  | .inReset       => 1#2
  | .ready         => 2#2

/-- The numeric code of a phase (R13, D15); 26 to 31 are never produced. -/
def Phase.code : Phase → BitVec 5
  | .idle => 0#5
  | .con1 => 1#5
  | .con2 => 2#5
  | .con3 => 3#5
  | .con4 => 4#5
  | .con5 => 5#5
  | .con6 => 6#5
  | .con7 => 7#5
  | .con8 => 8#5
  | .con9 => 9#5
  | .rst1 => 10#5
  | .rst2 => 11#5
  | .rst3 => 12#5
  | .rst4 => 13#5
  | .wr1  => 14#5
  | .wr2  => 15#5
  | .wr3  => 16#5
  | .wr4  => 17#5
  | .rd1  => 18#5
  | .rd2  => 19#5
  | .rd3  => 20#5
  | .rd4  => 21#5
  | .rd5  => 22#5
  | .rd6  => 23#5
  | .pfs  => 24#5
  | .done => 25#5

end Machine

end Sys2Proof
end

