-- ==== Sys2Proof/Machine/Ops.lean ====
section
/-! DEFINITION. The named operations: the pixel buffer, the reads of the elements, the events, the command port, taking
a refusal (R164) and the return from an operation (R27). -/

namespace Sys2Proof.Machine

/-! ### The caller's pixel buffer -/

/-- Do the slots rise strictly, all of them above `lo`? -/
def Memory.risesFrom : Nat → Memory → Bool
  | _, [] => true
  | lo, (a, _) :: rest => decide (lo ≤ a) && Memory.risesFrom (a + 1) rest

/-- The canonical form: slots strictly rising. An unlisted slot holds no value, so no entry can equal one. -/
def Memory.wf (m : Memory) : Bool := Memory.risesFrom 0 m

/-- The byte in a slot; none where nothing has been stored. -/
def Memory.read : Memory → Nat → Option Byte
  | [], _ => none
  | (a, v) :: rest, i => if i = a then some v else Memory.read rest i

/-- Store a byte into a slot, keeping the slots in rising order. -/
def Memory.write : Memory → Nat → Byte → Memory
  | [], i, v => [(i, v)]
  | (a, w) :: rest, i, v =>
    if i < a then (i, v) :: (a, w) :: rest
    else if i = a then (a, v) :: rest
    else (a, w) :: Memory.write rest i v

/-- What slot `i` of the caller's buffer holds. -/
def readSlot (s : State) (i : Nat) : Option Byte := Memory.read s.buf i

/-! ### Reading the elements: where an element holds no value, which no run reaches (R182), a free value (log 6) -/

/-- Read `areg` (R14). -/
def readAreg (s : State) : Byte := s.areg.getD (Config.unwrittenAreg s.eventNo)

/-- Read `dreg` (R14). -/
def readDreg (s : State) : Byte := s.dreg.getD (Config.unwrittenDreg s.eventNo)

/-- Read `rx` (R15). -/
def readRx (s : State) : Byte := s.rx.getD (Config.unwrittenRx s.eventNo)

/-- Read `idx` (R16). -/
def readIdx (s : State) : Byte := s.idx.getD (Config.unwrittenIdx s.eventNo)

/-- Read `st` (R17). -/
def readSt (s : State) : Status := s.st.getD (Config.unwrittenSt s.eventNo)

/-- Read `val` (R17). -/
def readVal (s : State) : Word := s.val.getD (Config.unwrittenVal s.eventNo)

/-- The result of the read that is ending: `result(op, rx)` (R87). An opcode that makes no read, or no opcode, gives a
free value: "No other command reaches RD6". Log 7. -/
def readResult (s : State) : Word :=
  match s.op with
  | some op => (result op (readRx s)).getD (Config.freeResult s.eventNo)
  | none => Config.freeResult s.eventNo

/-! ### Events (R24) -/

/-- `emit E` (R7): the step makes this event. -/
def emit (e : Event) (s : State) : State :=
  { s with trace := e :: s.trace, eventNo := s.eventNo + 1 }

/-- `Lvl(PIN_NCS, l)`, and `ncs` records it (R18). -/
def driveNcs (l : Level) (s : State) : State :=
  { emit (.lvl .ncs l) s with ncs := some l }

/-- `Lvl(PIN_NRESET, l)`, and `nreset` records it (R19). -/
def driveNreset (l : Level) (s : State) : State :=
  { emit (.lvl .nreset l) s with nreset := some l }

/-- `Dir(p, d)`, and `dir[p]` records it (R20). -/
def setDir (p : Pin) (d : Direction) (s : State) : State :=
  match p with
  | .nreset => { emit (.dir .nreset d) s with dirNreset := some d }
  | .ncs    => { emit (.dir .ncs d) s with dirNcs := some d }
  | .mosi   => { emit (.dir .mosi d) s with dirMosi := some d }
  | .miso   => { emit (.dir .miso d) s with dirMiso := some d }

/-- `Cfg(m)`, and `clkmode` records it (R21). -/
def configure (m : ClockMode) (s : State) : State :=
  { emit (.cfg m) s with clkmode := some m }

/-- `Sleep(t)` (R170): an event like any other; the model has no time (R195). -/
def sleepFor (t : Nat) (s : State) : State := emit (.sleep t) s

/-- The byte the next `Xfer` returns: the next of the inputs, or, when they are used up, a free value (R51). Log 3. -/
def nextXferByte (s : State) : Byte :=
  match s.xferIn with
  | [] => Config.freeXferByte s.eventNo
  | v :: _ => v

/-- `Xfer(o) -> i` (R24). The byte that comes back uses up one input; who wants to keep it reads `nextXferByte` first. -/
def exchange (o : Byte) (s : State) : State :=
  { emit (.xfer o (nextXferByte s)) s with xferIn := s.xferIn.tail }

/-! ### The command port, and the ends of an operation -/

/-- The command the host presents, taken off its list (R26, R69). -/
def fetch (s : State) : Option (Word × State) :=
  match s.commands with
  | [] => none
  | c :: rest => some (c, { s with commands := rest })

/-- The first two lines of the accept step (R26): `emit Acc(c)`, `op <- c[15:12]`. -/
def acceptWord (c : Word) (s : State) : State :=
  { emit (.acc c) s with op := some (opField c) }

/-- Taking a refusal, `raise E(c)` (R164): status, the whole command word, phase DONE, and nothing else. -/
def raise (e : CmdError) (c : Word) (s : State) : State :=
  { s with st := some e.status, val := some c, phase := .done }

/-- The end of an operation's work: `st <- OK; val <- w; phase <- DONE` (R17). -/
def finish (w : Word) (s : State) : State :=
  { s with st := some .ok, val := some w, phase := .done }

/-- The return from an operation, carried out or refused: step DONE (R27, R165). -/
def respond (s : State) : State :=
  { emit (.rsp (readSt s) (readVal s)) s with phase := .idle }

/-- The last check of R163 for a command that needs the session Ready. -/
def needReady (ses : Session) : Option CmdError :=
  if ses = .ready then none else some .notReady

/-- `first_error` (R163) of a decoded command. A word that decodes to none is IllegalOp, the first check. -/
def firstError (i : Instr) (ses : Session) : Option CmdError :=
  match i with
  | .construct _ => if ses = .uninitialized then none else some .constructed
  | .wrreg _ sel _ | .rdreg _ sel _ => if sel.isReserved then some .illegalReg else needReady ses
  | .reset _ | .motion _ | .deltax _ | .deltay _ | .squal _ | .resmode _ | .pixframe _ => needReady ses
  | .isatt _ => some .unsupported

/-- The accept step (R26) of a decoded command: accept its word, make the checks, then raise or take its own action. -/
def acceptCommand (i : Instr) (action : State → State) (s : State) : State :=
  match firstError i s.session with
  | some e => raise e (encode i) (acceptWord (encode i) s)
  | none => action (acceptWord (encode i) s)

/-- The accept step (R26) of a word with a reserved opcode: IllegalOp (R67, R161). -/
def acceptReserved (c : Word) (s : State) : State :=
  raise .illegalOp c (acceptWord c s)

end Sys2Proof.Machine
end

