-- ==== Sys2Proof/Machine/BusTransactions.lean ====
section
/-! DEFINITION. The layer Bus Transaction Primitive (40_bus_transactions.md): WRREG and RDREG, and the steps of the write
transaction (R82, R83) and of the read transaction (R86, R87) that every command's bus traffic is made of. -/

namespace Sys2Proof.Machine

/-- WRREG, its accept step (R81): `areg <- ADDR[rsel]`, `dreg <- data`, to WR1. -/
def execWrreg (z : BitVec 1) (sel : RegSel) (data : Byte) (s : State) : Host.Outcome State Fault Refusal :=
  .next (acceptCommand (.wrreg z sel data)
    (fun t => { t with areg := sel.addr t.cfg, dreg := some data, phase := .wr1 }) s)

/-- RDREG, its accept step (R85): `areg <- ADDR[rsel]`, to RD1. -/
def execRdreg (z : BitVec 1) (sel : RegSel) (unused : Byte) (s : State) : Host.Outcome State Fault Refusal :=
  .next (acceptCommand (.rdreg z sel unused)
    (fun t => { t with areg := sel.addr t.cfg, phase := .rd1 }) s)

/-- WR1 (R82): chip-select Low. -/
def stepWr1 (s : State) : State := { driveNcs .low s with phase := .wr2 }

/-- WR2 (R82): send the address byte; the byte that comes back is dropped (R84). -/
def stepWr2 (s : State) : State := { exchange (readAreg s) s with phase := .wr3 }

/-- WR3 (R82): send the data byte; the byte that comes back is dropped (R84). -/
def stepWr3 (s : State) : State := { exchange (readDreg s) s with phase := .wr4 }

/-- WR4 (R82): chip-select High; PIXFRAME goes on to its reads, every other command is finished (R83). -/
def stepWr4 (s : State) : State :=
  if s.op = some opPixframe then { driveNcs .high s with idx := some 0#8, phase := .rd1 }
  else finish 0#16 (driveNcs .high s)

/-- RD1 (R86): chip-select Low. -/
def stepRd1 (s : State) : State := { driveNcs .low s with phase := .rd2 }

/-- RD2 (R86): send the address byte; the byte that comes back is dropped (R84). -/
def stepRd2 (s : State) : State := { exchange (readAreg s) s with phase := .rd3 }

/-- RD3 (R86): the data pin to Input. -/
def stepRd3 (s : State) : State := { setDir .mosi .input s with phase := .rd4 }

/-- RD4 (R86): send the filler, keep the byte that comes back in `rx`. -/
def stepRd4 (s : State) : State :=
  { exchange Config.filler s with rx := some (nextXferByte s), phase := .rd5 }

/-- RD5 (R86): the data pin back to Output. -/
def stepRd5 (s : State) : State := { setDir .mosi .output s with phase := .rd6 }

/-- RD6 (R86): chip-select High; PIXFRAME goes on to the store, every other command answers its result (R87). -/
def stepRd6 (s : State) : State :=
  if s.op = some opPixframe then { driveNcs .high s with phase := .pfs }
  else finish (readResult s) (driveNcs .high s)

end Sys2Proof.Machine
end

