-- ==== Sys2Proof/Machine/PixelFrame.lean ====
section
/-! DEFINITION. Pixel-frame streaming (43_pixel_frame.md): PIXFRAME and the pixel store. Its rewind write and its read
rounds are the transactions of BusTransactions.lean (R142, R143). -/

namespace Sys2Proof.Machine

/-- PIXFRAME, its accept step (R141): `areg <- ADDR_PIXEL`, `dreg <- REWIND`, to WR1. -/
def execPixframe (unused : BitVec 12) (s : State) : Host.Outcome State Fault Refusal :=
  .next (acceptCommand (.pixframe unused)
    (fun t => { t with areg := some t.cfg.addrPixel, dreg := some Config.rewind, phase := .wr1 }) s)

/-- `Buf(i, v)` (R28): store `v` into slot `i` of the caller's buffer. -/
def storeSlot (i v : Byte) (s : State) : State :=
  { emit (.buf i v) s with buf := Memory.write s.buf i.toNat v }

/-- PFS (R144): store `rx` into slot `idx`, count, and end after the last slot. A slot above 224 does not exist (R28). -/
def stepPfs (s : State) : Host.Outcome State Fault Refusal :=
  let i := readIdx s
  if i.toNat + 1 < Config.frameLen then
    .next { storeSlot i (readRx s) s with idx := some (i + 1#8), phase := .rd1 }
  else if i.toNat + 1 = Config.frameLen then
    .next (finish 0#16 { storeSlot i (readRx s) s with idx := some (i + 1#8) })
  else
    .fault (.noSuchSlot i)

end Sys2Proof.Machine
end

