-- ==== Sys2Proof/Machine/RegisterAccess.lean ====
section
/-! DEFINITION. The layer Register Access Protocol (41_register_access.md): the accept steps of the five typed reads
(R100). Each loads its own register address and goes to RD1; its result function, in Operands.lean, is applied at RD6. -/

namespace Sys2Proof.Machine

/-- MOTION, its accept step (R100, R101). -/
def execMotion (unused : BitVec 12) (s : State) : Host.Outcome State Fault Refusal :=
  .next (acceptCommand (.motion unused) (fun t => { t with areg := some t.cfg.addrMotion, phase := .rd1 }) s)

/-- DELTAX, its accept step (R100, R103). -/
def execDeltax (unused : BitVec 12) (s : State) : Host.Outcome State Fault Refusal :=
  .next (acceptCommand (.deltax unused) (fun t => { t with areg := some t.cfg.addrDeltaX, phase := .rd1 }) s)

/-- DELTAY, its accept step (R100, R105). -/
def execDeltay (unused : BitVec 12) (s : State) : Host.Outcome State Fault Refusal :=
  .next (acceptCommand (.deltay unused) (fun t => { t with areg := some t.cfg.addrDeltaY, phase := .rd1 }) s)

/-- SQUAL, its accept step (R100, R107). -/
def execSqual (unused : BitVec 12) (s : State) : Host.Outcome State Fault Refusal :=
  .next (acceptCommand (.squal unused) (fun t => { t with areg := some t.cfg.addrSqual, phase := .rd1 }) s)

/-- RESMODE, its accept step (R100, R109). -/
def execResmode (unused : BitVec 12) (s : State) : Host.Outcome State Fault Refusal :=
  .next (acceptCommand (.resmode unused) (fun t => { t with areg := some t.cfg.addrMode, phase := .rd1 }) s)

end Sys2Proof.Machine
end

