-- ==== Sys2Proof/Machine/Session.lean ====
section
/-! DEFINITION. The session commands (42_session.md): CONSTRUCT, RESET and ISATT, the construct sequence (R122) and the
reset pulse (R127). -/

namespace Sys2Proof.Machine

/-- CONSTRUCT, its accept step (R121): session to InReset, to CON1. -/
def execConstruct (unused : BitVec 12) (s : State) : Host.Outcome State Fault Refusal :=
  .next (acceptCommand (.construct unused) (fun t => { t with session := .inReset, phase := .con1 }) s)

/-- RESET, its accept step (R126): session to InReset, to RST1. -/
def execReset (unused : BitVec 12) (s : State) : Host.Outcome State Fault Refusal :=
  .next (acceptCommand (.reset unused) (fun t => { t with session := .inReset, phase := .rst1 }) s)

/-- ISATT (R131): Unsupported in every session state, so it has no action of its own to take. -/
def execIsatt (unused : BitVec 12) (s : State) : Host.Outcome State Fault Refusal :=
  .next (acceptCommand (.isatt unused) (fun t => t) s)

/-- CON1 (R122): the reset pin to Output. -/
def stepCon1 (s : State) : State := { setDir .nreset .output s with phase := .con2 }

/-- CON2 (R122): the chip-select pin to Output. -/
def stepCon2 (s : State) : State := { setDir .ncs .output s with phase := .con3 }

/-- CON3 (R122): the MOSI pin to Output. -/
def stepCon3 (s : State) : State := { setDir .mosi .output s with phase := .con4 }

/-- CON4 (R122): the MISO pin to Input. -/
def stepCon4 (s : State) : State := { setDir .miso .input s with phase := .con5 }

/-- CON5 (R122): the reset pin Low. -/
def stepCon5 (s : State) : State := { driveNreset .low s with phase := .con6 }

/-- CON6 (R122): chip-select High. -/
def stepCon6 (s : State) : State := { driveNcs .high s with phase := .con7 }

/-- CON7 (R122): the clock mode. -/
def stepCon7 (s : State) : State := { configure .mode11 s with phase := .con8 }

/-- CON8 (R122): wait for the peripheral's startup. -/
def stepCon8 (s : State) : State := { sleepFor s.cfg.tStartupMs s with phase := .con9 }

/-- CON9 (R122): the reset pin High; the reset pulse follows (R123). -/
def stepCon9 (s : State) : State := { driveNreset .high s with phase := .rst1 }

/-- RST1 (R127): the reset pin Low. -/
def stepRst1 (s : State) : State := { driveNreset .low s with phase := .rst2 }

/-- RST2 (R127): the first settling delay. -/
def stepRst2 (s : State) : State := { sleepFor s.cfg.tSettleMs s with phase := .rst3 }

/-- RST3 (R127): the reset pin High. -/
def stepRst3 (s : State) : State := { driveNreset .high s with phase := .rst4 }

/-- RST4 (R127): the second settling delay, and only then the session is Ready. -/
def stepRst4 (s : State) : State := finish 0#16 { sleepFor s.cfg.tSettleMs s with session := .ready }

end Sys2Proof.Machine
end

