-- ==== Sys2Proof/Machine/Dispatch.lean ====
section
/-! DEFINITION. One arm for each command: its accept step (R26). Log 14. -/

namespace Sys2Proof.Machine

def exec (i : Instr) (s : State) : Host.Outcome State Fault Refusal :=
  match i with
  | .construct u => Sys2Proof.Machine.execConstruct u s
  | .reset u => Sys2Proof.Machine.execReset u s
  | .wrreg z sel data => Sys2Proof.Machine.execWrreg z sel data s
  | .rdreg z sel u => Sys2Proof.Machine.execRdreg z sel u s
  | .motion u => Sys2Proof.Machine.execMotion u s
  | .deltax u => Sys2Proof.Machine.execDeltax u s
  | .deltay u => Sys2Proof.Machine.execDeltay u s
  | .squal u => Sys2Proof.Machine.execSqual u s
  | .resmode u => Sys2Proof.Machine.execResmode u s
  | .pixframe u => Sys2Proof.Machine.execPixframe u s
  | .isatt u => Sys2Proof.Machine.execIsatt u s

end Sys2Proof.Machine
end

