-- ==== Sys2Proof/Machine/Step.lean ====
section
/-! DEFINITION. The step relation (R29): one event a step, the phase says which. -/

namespace Sys2Proof.Machine

/-- The step in phase IDLE (R26): accept the command the host presents; with none presented there is no step. -/
def stepIdle (s : State) : Host.Outcome State Fault Refusal :=
  match fetch s with
  | none => .fault .quiescent
  | some (c, t) =>
    match decode c with
    | .ok i => exec i t
    | .error _ => .next (acceptReserved c t)

/-- One step (R29). Logs 10 to 12, 14. -/
def step (s : State) : Host.Outcome State Fault Refusal :=
  match s.phase with
  | .idle => stepIdle s
  | .con1 => .next (stepCon1 s)
  | .con2 => .next (stepCon2 s)
  | .con3 => .next (stepCon3 s)
  | .con4 => .next (stepCon4 s)
  | .con5 => .next (stepCon5 s)
  | .con6 => .next (stepCon6 s)
  | .con7 => .next (stepCon7 s)
  | .con8 => .next (stepCon8 s)
  | .con9 => .next (stepCon9 s)
  | .rst1 => .next (stepRst1 s)
  | .rst2 => .next (stepRst2 s)
  | .rst3 => .next (stepRst3 s)
  | .rst4 => .next (stepRst4 s)
  | .wr1 => .next (stepWr1 s)
  | .wr2 => .next (stepWr2 s)
  | .wr3 => .next (stepWr3 s)
  | .wr4 => .next (stepWr4 s)
  | .rd1 => .next (stepRd1 s)
  | .rd2 => .next (stepRd2 s)
  | .rd3 => .next (stepRd3 s)
  | .rd4 => .next (stepRd4 s)
  | .rd5 => .next (stepRd5 s)
  | .rd6 => .next (stepRd6 s)
  | .pfs => stepPfs s
  | .done => .next (respond s)

/-- The state in which the host presents, next and alone, the command whose bits are `w` (numbered as the opcode table
numbers them, the bits above `nbits` zero), and the sequencer waits for it (R26). It stands for the host's presenting a
program. Log 13. -/
def State.withFetchWord (s : State) (nbits w : Nat) : State :=
  { s with phase := .idle, commands := [BitVec.ofNat 16 (w % 2 ^ nbits)] }

end Sys2Proof.Machine
end

