-- ==== Sys2Proof/Machine/Bus.lean ====
section
/-! DEFINITION. Runs, and what can be read off the events of one: the position inside a chip-select bracket (R89), the list of
transactions (R80), the alternation of Acc and Rsp (R27), and what kind of event an event is (R9, R24). -/

namespace Sys2Proof.Machine

/-- `k` steps, stopping at the first fault or refusal. -/
def run : Nat → State → Host.Outcome State Fault Refusal
  | 0, s => .next s
  | k + 1, s =>
    match step s with
    | .next t => run k t
    | .fault f => .fault f
    | .refused r => .refused r

/-- A `Dir`, `Lvl`, `Cfg`, `Xfer` or `Sleep` event (R9). -/
def Event.isCollaborator : Event → Bool
  | .dir _ _ | .lvl _ _ | .cfg _ | .xfer _ _ | .sleep _ => true
  | .acc _ | .buf _ _ | .rsp _ _ => false

/-- An `Xfer` event. -/
def Event.isXfer : Event → Bool
  | .xfer _ _ => true
  | .dir _ _ | .lvl _ _ | .cfg _ | .sleep _ | .acc _ | .buf _ _ | .rsp _ _ => false

/-- An `Acc` event. -/
def Event.isAcc : Event → Bool
  | .acc _ => true
  | .dir _ _ | .lvl _ _ | .cfg _ | .xfer _ _ | .sleep _ | .buf _ _ | .rsp _ _ => false

/-- A `Sleep` event. -/
def Event.isSleep : Event → Bool
  | .sleep _ => true
  | .dir _ _ | .lvl _ _ | .cfg _ | .xfer _ _ | .acc _ | .buf _ _ | .rsp _ _ => false

/-- A `Buf` event. -/
def Event.isBuf : Event → Bool
  | .buf _ _ => true
  | .dir _ _ | .lvl _ _ | .cfg _ | .xfer _ _ | .sleep _ | .acc _ | .rsp _ _ => false

/-- A `Dir` event. -/
def Event.isDir : Event → Bool
  | .dir _ _ => true
  | .lvl _ _ | .cfg _ | .xfer _ _ | .sleep _ | .acc _ | .buf _ _ | .rsp _ _ => false

/-- The slot that a `Buf` event stores to. -/
def Event.slot : Event → Option Nat
  | .buf i _ => some i.toNat
  | .dir _ _ | .lvl _ _ | .cfg _ | .xfer _ _ | .sleep _ | .acc _ | .rsp _ _ => none

/-- What an event is to the sensor bus (R89): chip-select Low or High, the data pin to Input or Output, an exchange, or
nothing of it. -/
inductive BusEvent where
  | select
  | release
  | listen
  | talk
  | exchange (o i : Byte)
  | other
  deriving DecidableEq, Repr

/-- The event as the bus sees it. -/
def Event.onBus : Event → BusEvent
  | .lvl .ncs .low     => .select
  | .lvl .ncs .high    => .release
  | .lvl .nreset _     => .other
  | .lvl .mosi _       => .other
  | .lvl .miso _       => .other
  | .dir .mosi .input  => .listen
  | .dir .mosi .output => .talk
  | .dir .nreset _     => .other
  | .dir .ncs _        => .other
  | .dir .miso _       => .other
  | .xfer o i          => .exchange o i
  | .cfg _             => .other
  | .sleep _           => .other
  | .acc _             => .other
  | .buf _ _           => .other
  | .rsp _ _           => .other

/-- Where the bus stands, seen from its events: before the first High of chip-select, between two brackets, or inside a
bracket, with the bytes sent and received so far. -/
inductive BusPos where
  /-- Chip-select has had no level yet. -/
  | untouched
  /-- Chip-select is High: between two brackets. -/
  | released
  /-- Chip-select has gone Low, nothing has been sent. -/
  | selected
  /-- The first byte has been sent. -/
  | addressed (a : Byte)
  /-- A second byte has been sent with the data pin left alone: a write. -/
  | written (a d : Byte)
  /-- The data pin has been set to Input. -/
  | turned (a : Byte)
  /-- The second exchange has returned `v`. -/
  | valued (a v : Byte)
  /-- The data pin has been set back to Output: a read. -/
  | restored (a v : Byte)
  deriving DecidableEq, Repr

/-- The bracket grammar of R89: how the bus moves, none where the grammar forbids it. Outside a bracket no exchange is
allowed and chip-select can only go Low, but for the High of step CON6, which comes first of all. -/
def BusPos.move (b : BusPos) (e : BusEvent) : Option BusPos :=
  match b with
  | .untouched =>
    match e with
    | .release => some .released
    | .select | .exchange _ _ => none
    | .listen | .talk | .other => some .untouched
  | .released =>
    match e with
    | .select => some .selected
    | .release | .exchange _ _ => none
    | .listen | .talk | .other => some .released
  | .selected =>
    match e with
    | .exchange a _ => some (.addressed a)
    | .select | .release | .listen | .talk | .other => none
  | .addressed a =>
    match e with
    | .exchange d _ => some (.written a d)
    | .listen => some (.turned a)
    | .select | .release | .talk | .other => none
  | .written _ _ =>
    match e with
    | .release => some .released
    | .select | .listen | .talk | .exchange _ _ | .other => none
  | .turned a =>
    match e with
    | .exchange _ v => some (.valued a v)
    | .select | .release | .listen | .talk | .other => none
  | .valued a v =>
    match e with
    | .talk => some (.restored a v)
    | .select | .release | .listen | .exchange _ _ | .other => none
  | .restored _ _ =>
    match e with
    | .release => some .released
    | .select | .listen | .talk | .exchange _ _ | .other => none

/-- Where the bus stands after the events of a trace (newest first); none once the grammar has been broken. -/
def busPos : List Event → Option BusPos
  | [] => some .untouched
  | e :: older => (busPos older).bind (fun b => b.move e.onBus)

/-- A finished transaction: a byte written to an address, or a byte read from one (R80). -/
inductive Txn where
  | write (a d : Byte)
  | read (a v : Byte)
  deriving DecidableEq, Repr

/-- The transaction that the release of chip-select finishes, by where the bus stands. -/
def BusPos.txn : BusPos → Option Txn
  | .written a d => some (.write a d)
  | .restored a v => some (.read a v)
  | .untouched | .released | .selected | .addressed _ | .turned _ | .valued _ _ => none

/-- The finished transactions of a trace, newest first. -/
def txns : List Event → List Txn
  | [] => []
  | e :: older =>
    if e.onBus = .release then ((busPos older).bind BusPos.txn).toList ++ txns older else txns older

/-- Is a command in progress, seen from the events (R27)? An `Acc` opens it, the next `Rsp` closes it; none once an
`Acc` or an `Rsp` stands where the other was due. -/
def commandOpen : List Event → Option Bool
  | [] => some false
  | e :: older =>
    match commandOpen older with
    | none => none
    | some open_ =>
      match e with
      | .acc _ => if open_ then none else some true
      | .rsp _ _ => if open_ then some false else none
      | _ => some open_

end Sys2Proof.Machine
end

