-- ==== Sys2Proof/Machine/Sensor.lean ====
section
/-! DEFINITION. The sensor as environment: the four named hypotheses of R47 to R50, each a predicate on the transactions
of a run, and the two test harnesses of R55. None of it is part of the sequencer, whose steps are the same whatever the
sensor returns (R51). Logs 15, 18 to 21. -/

namespace Sys2Proof.Machine

/-! ### The hypotheses, over the transactions so far, newest first -/

/-- Has motion happened since the last read of the motion register, when the transactions so far are these? `moved n`
says that motion happened between transaction `n - 1` and transaction `n` of the run. DESIGN CHOICE, where the spec is
silent (R130, N12, U13): a reset pulse leaves the latch as it was, since only transactions are looked at (log 19), and so
does a write to the motion register (log 20). Unsafe. -/
def motionLatch (cfg : Config) (moved : Nat → Bool) : List Txn → Bool
  | [] => moved 0
  | .write a d :: older =>
    motionLatch cfg moved older || moved (List.length (Txn.write a d :: older))
  | .read a v :: older =>
    (decide (a ≠ cfg.addrMotion) && motionLatch cfg moved older) || moved (List.length (Txn.read a v :: older))

/-- H_MOTION (R47): the top bit of the motion register says whether motion has happened since it was last read. Of a
chip that clears its latch on a reset pulse or on a write it is not true (logs 19, 20). -/
def HMotion (cfg : Config) (moved : Nat → Bool) : List Txn → Prop
  | [] => True
  | .write _ _ :: older => HMotion cfg moved older
  | .read a v :: older =>
    HMotion cfg moved older ∧ (a = cfg.addrMotion → v.msb = motionLatch cfg moved older)

/-- The count of one axis since its register `reg` was last read. `count n` is the movement between transaction `n - 1`
and transaction `n` of the run. DESIGN CHOICE, where the spec is silent (R130, N12, U13): a reset pulse leaves the count
as it was, since only transactions are looked at (log 19), and so does a write to the register (log 20). Unsafe. -/
def deltaCount (reg : Byte) (count : Nat → Int) : List Txn → Int
  | [] => count 0
  | .write a d :: older => deltaCount reg count older + count (List.length (Txn.write a d :: older))
  | .read a v :: older =>
    (if a = reg then 0 else deltaCount reg count older) + count (List.length (Txn.read a v :: older))

/-- H_DELTA (R48) for the register `reg` of one axis: it holds the count since its last read, as a two's-complement
byte. Nothing is said of a read at which the count is outside -128 to 127. DESIGN CHOICE, where the spec is silent (R48,
N12): a count that left that range and came back before the read is asked for in full, which a chip that saturates does
not give (log 21). Unsafe. -/
def HDelta (reg : Byte) (count : Nat → Int) : List Txn → Prop
  | [] => True
  | .write _ _ :: older => HDelta reg count older
  | .read a v :: older =>
    HDelta reg count older ∧
      (a = reg → -128 ≤ deltaCount reg count older → deltaCount reg count older ≤ 127 →
        s8 v = deltaCount reg count older)

/-- H_RANGE (R49): a read of the surface-quality register returns at most 144. -/
def HRange (cfg : Config) (ts : List Txn) : Prop :=
  ∀ v : Byte, Txn.read cfg.addrSqual v ∈ ts → v.toNat ≤ Config.squalMax

/-- The chip's frame cursor (R50): 0 after a zero is written to the pixel-stream register, one further after each read
of it. None where the rule says nothing: before the first rewind, and after a write of another byte. DESIGN CHOICE, where
the spec is silent (R130, U13): a reset pulse leaves the cursor as it was, since only transactions are looked at
(log 19). Unsafe. -/
def pixelCursor (cfg : Config) : List Txn → Option Nat
  | [] => none
  | .write a d :: older =>
    if a = cfg.addrPixel then (if d = 0x00#8 then some 0 else none) else pixelCursor cfg older
  | .read a _ :: older =>
    if a = cfg.addrPixel then (pixelCursor cfg older).map (· + 1) else pixelCursor cfg older

/-- How many rewinds there have been: which frame the cursor stands in. -/
def rewinds (cfg : Config) : List Txn → Nat
  | [] => 0
  | .write a d :: older => (if a = cfg.addrPixel ∧ d = 0x00#8 then 1 else 0) + rewinds cfg older
  | .read _ _ :: older => rewinds cfg older

/-- H_PIXEL (R50): after the `n`-th rewind the reads of the pixel-stream register yield the 225 samples `frame n 0` to
`frame n 224` in order. Nothing is said of a 226th read (N13). A reset pulse between two of the reads changes nothing
(log 19). -/
def HPixel (cfg : Config) (frame : Nat → Nat → Byte) : List Txn → Prop
  | [] => True
  | .write _ _ :: older => HPixel cfg frame older
  | .read a v :: older =>
    HPixel cfg frame older ∧
      (a = cfg.addrPixel → ∀ k, pixelCursor cfg older = some k → k < Config.frameLen →
        v = frame (rewinds cfg older) k)

/-! ### The harnesses of R55: what the next `Xfer` returns, given the events so far -/

/-- `sreg[a]` (R55): the byte last written to `a`, at first 0. -/
def harnessReg : List Txn → Byte → Byte
  | [], _ => 0x00#8
  | .write a d :: older, r => if a = r then d else harnessReg older r
  | .read _ _ :: older, r => harnessReg older r

/-- The echo harness (R55): the value exchange of a read returns `sreg[o1]`, every other exchange 0xFF. -/
def echoReply (tr : List Event) : Byte :=
  match busPos tr with
  | some (.turned a) => harnessReg (txns tr) a
  | _ => 0xFF#8

/-- `cur` (R55): 0 after a write of 0x00 to `ADDR_PIXEL`, one further after each read of it; at first 0. Log 15. -/
def harnessCursor (cfg : Config) : List Txn → Nat
  | [] => 0
  | .write a d :: older => if a = cfg.addrPixel ∧ d = 0x00#8 then 0 else harnessCursor cfg older
  | .read a _ :: older => if a = cfg.addrPixel then harnessCursor cfg older + 1 else harnessCursor cfg older

/-- The pixel harness (R55): the echo harness, but that a read of `ADDR_PIXEL` returns `pix[cur]`; past the end of
`pix`, 0xFF. Log 15. -/
def pixelReply (cfg : Config) (pix : List Byte) (tr : List Event) : Byte :=
  match busPos tr with
  | some (.turned a) =>
    if a = cfg.addrPixel then pix.getD (harnessCursor cfg (txns tr)) 0xFF#8 else harnessReg (txns tr) a
  | _ => 0xFF#8

/-- `k` steps with a sensor on the bus: before each step, `reply` of the events so far is the byte that an `Xfer` of
that step returns. -/
def runWith (reply : List Event → Byte) : Nat → State → Host.Outcome State Fault Refusal
  | 0, s => .next s
  | k + 1, s =>
    match step { s with xferIn := [reply s.trace] } with
    | .next t => runWith reply k t
    | .fault f => .fault f
    | .refused r => .refused r

end Sys2Proof.Machine
end

