-- ==== Sys2Proof/Safety.lean ====
section
/-! DEFINITION. What a sound run is: the states a power-on reset leaves (R180), the states reached from one, the
invariant of the step relation, and the properties of the whole machine that R27, R29, R31, R89 and R120 name. -/

namespace Sys2Proof.Machine

/-! ### Groups of phases (R13) -/

/-- CON1 to CON9. -/
def Phase.inConstruct : Phase → Bool
  | .con1 | .con2 | .con3 | .con4 | .con5 | .con6 | .con7 | .con8 | .con9 => true
  | _ => false

/-- RST1 to RST4. -/
def Phase.inPulse : Phase → Bool
  | .rst1 | .rst2 | .rst3 | .rst4 => true
  | _ => false

/-- WR1 to WR4. -/
def Phase.inWrite : Phase → Bool
  | .wr1 | .wr2 | .wr3 | .wr4 => true
  | _ => false

/-- RD1 to RD6. -/
def Phase.inRead : Phase → Bool
  | .rd1 | .rd2 | .rd3 | .rd4 | .rd5 | .rd6 => true
  | _ => false

/-- The phases in which chip-select is Low (R31 item 2). -/
def Phase.selects : Phase → Bool
  | .wr2 | .wr3 | .wr4 | .rd2 | .rd3 | .rd4 | .rd5 | .rd6 => true
  | _ => false

/-- The phases in which the data pin is Input (R31 item 1). -/
def Phase.listens : Phase → Bool
  | .rd4 | .rd5 => true
  | _ => false

/-- The phases in which the reset pin is Low (R31 item 8). -/
def Phase.holdsReset : Phase → Bool
  | .con6 | .con7 | .con8 | .con9 | .rst2 | .rst3 => true
  | _ => false

/-! ### Where a run starts, and what it reaches -/

/-- What power-on reset leaves (R180), with any binding, any program of the host, any bytes of the sensor and any
canonical contents of the caller's buffer. -/
structure PowerOn (s : State) : Prop where
  session   : s.session = .uninitialized
  phase     : s.phase = .idle
  op        : s.op = none
  areg      : s.areg = none
  dreg      : s.dreg = none
  rx        : s.rx = none
  idx       : s.idx = none
  st        : s.st = none
  val       : s.val = none
  ncs       : s.ncs = none
  nreset    : s.nreset = none
  dirNreset : s.dirNreset = none
  dirNcs    : s.dirNcs = none
  dirMosi   : s.dirMosi = none
  dirMiso   : s.dirMiso = none
  clkmode   : s.clkmode = none
  buf       : Memory.wf s.buf = true
  trace     : s.trace = []

/-- The states of the runs: what steps reach from power-on. -/
inductive Reachable : State → Prop where
  | powerOn {s : State} : PowerOn s → Reachable s
  | step {s t : State} : Reachable s → Machine.step s = .next t → Reachable t

/-! ### The invariant -/

/-- How many of the nine steps of the construct sequence have been taken (R122), by phase and session. -/
def constructStage (s : State) : Nat :=
  match s.phase with
  | .con1 => 0
  | .con2 => 1
  | .con3 => 2
  | .con4 => 3
  | .con5 => 4
  | .con6 => 5
  | .con7 => 6
  | .con8 => 7
  | .con9 => 8
  | _ =>
    match s.session with
    | .uninitialized => 0
    | .inReset => 9
    | .ready => 9

/-- The pins and the clock mode are what the construct sequence, the pulses and the transactions have made them so far
(R122, R127, R82, R86). -/
structure PinsInv (s : State) : Prop where
  dirNreset : s.dirNreset = if 1 ≤ constructStage s then some .output else none
  dirNcs    : s.dirNcs = if 2 ≤ constructStage s then some .output else none
  dirMosi   : s.dirMosi =
    if 3 ≤ constructStage s then some (if s.phase.listens then .input else .output) else none
  dirMiso   : s.dirMiso = if 4 ≤ constructStage s then some .input else none
  nreset    : s.nreset =
    if 5 ≤ constructStage s then some (if s.phase.holdsReset then .low else .high) else none
  ncs       : s.ncs =
    if 6 ≤ constructStage s then some (if s.phase.selects then .low else .high) else none
  clkmode   : s.clkmode = if 7 ≤ constructStage s then some .mode11 else none

/-- The session fits the phase (R11, R120, R31 item 6). -/
structure SessionInv (s : State) : Prop where
  inReset : s.session = .inReset ↔ (s.phase.inConstruct || s.phase.inPulse) = true
  ready   : (s.phase.inWrite || s.phase.inRead || decide (s.phase = .pfs)) = true → s.session = .ready

/-- The latches that the phase will read hold values (R182), and the opcode is one that comes to this phase. -/
structure LatchInv (s : State) : Prop where
  opBusy    : s.phase ≠ .idle → s.op.isSome
  opCon     : s.phase.inConstruct = true → s.op = some 0x1#4
  opPulse   : s.phase.inPulse = true → s.op = some 0x1#4 ∨ s.op = some 0x2#4
  opWrite   : s.phase.inWrite = true → s.op = some 0x3#4 ∨ s.op = some opPixframe
  opRead    : s.phase.inRead = true → ∃ o, s.op = some o ∧ 0x4 ≤ o.toNat ∧ o.toNat ≤ 0xA
  opPfs     : s.phase = .pfs → s.op = some opPixframe
  areg      : (s.phase.inWrite || s.phase.inRead || decide (s.phase = .pfs)) = true → s.areg.isSome
  dreg      : s.phase.inWrite = true → s.dreg.isSome
  rx        : s.phase = .rd5 ∨ s.phase = .rd6 ∨ s.phase = .pfs → s.rx.isSome
  response  : s.phase = .done → s.st.isSome ∧ s.val.isSome
  frame     : s.op = some opPixframe → (s.phase.inWrite || s.phase.inRead || decide (s.phase = .pfs)) = true →
    s.areg = some s.cfg.addrPixel
  rewind    : s.op = some opPixframe → s.phase.inWrite = true → s.dreg = some Config.rewind
  idx       : s.op = some opPixframe → (s.phase.inRead || decide (s.phase = .pfs)) = true →
    ∃ i, s.idx = some i ∧ i.toNat < Config.frameLen

/-- The invariant of the step relation: pins, session, latches, and the caller's buffer in its canonical form. -/
structure Inv (s : State) : Prop where
  pins    : PinsInv s
  session : SessionInv s
  latch   : LatchInv s
  buf     : Memory.wf s.buf = true

/-- Where the bus stands in each phase, for the bytes a state holds (R82, R86, R89). -/
def BusFits (s : State) : BusPos → Prop
  | .untouched => constructStage s < 6
  | .released => 6 ≤ constructStage s ∧ s.phase.selects = false
  | .selected => s.phase = .wr2 ∨ s.phase = .rd2
  | .addressed a => (s.phase = .wr3 ∨ s.phase = .rd3) ∧ s.areg = some a
  | .written a d => s.phase = .wr4 ∧ s.areg = some a ∧ s.dreg = some d
  | .turned a => s.phase = .rd4 ∧ s.areg = some a
  | .valued a v => s.phase = .rd5 ∧ s.areg = some a ∧ s.rx = some v
  | .restored a v => s.phase = .rd6 ∧ s.areg = some a ∧ s.rx = some v

/-- The events so far keep the bracket grammar of R89, and the bus stands where the phase says. -/
def BusInv (s : State) : Prop :=
  ∃ b, busPos s.trace = some b ∧ BusFits s b

/-- The events so far alternate `Acc` and `Rsp`, and a command is open exactly while the sequencer is busy (R27). -/
def PortInv (s : State) : Prop :=
  commandOpen s.trace = some (busy s)

/-- R31 item 5 as a property of the state and its events: the session is Uninitialized exactly while no CONSTRUCT has
been accepted, and then there has been no collaborator event. -/
structure UntouchedInv (s : State) : Prop where
  session : s.session = .uninitialized ↔ ∀ c, Event.acc c ∈ s.trace → opField c ≠ 0x1#4
  quiet   : s.session = .uninitialized → ∀ e ∈ s.trace, e.isCollaborator = false

/-! ### The transition graph of R29 -/

/-- The graph of R29 over the phases: the arrows from phase `p`. -/
def graphSucc : Phase → List Phase
  | .idle => [.done, .con1, .rst1, .wr1, .rd1]
  | .con1 => [.con2]
  | .con2 => [.con3]
  | .con3 => [.con4]
  | .con4 => [.con5]
  | .con5 => [.con6]
  | .con6 => [.con7]
  | .con7 => [.con8]
  | .con8 => [.con9]
  | .con9 => [.rst1]
  | .rst1 => [.rst2]
  | .rst2 => [.rst3]
  | .rst3 => [.rst4]
  | .rst4 => [.done]
  | .wr1 => [.wr2]
  | .wr2 => [.wr3]
  | .wr3 => [.wr4]
  | .wr4 => [.done, .rd1]
  | .rd1 => [.rd2]
  | .rd2 => [.rd3]
  | .rd3 => [.rd4]
  | .rd4 => [.rd5]
  | .rd5 => [.rd6]
  | .rd6 => [.done, .pfs]
  | .pfs => [.rd1, .done]
  | .done => [.idle]

/-- The phase R29's graph gives after an accepted word, by the opcode, when no check fails. -/
def acceptTarget (op : BitVec 4) : Phase :=
  match op.toNat with
  | 0x1 => .con1
  | 0x2 => .rst1
  | 0x3 => .wr1
  | 0xA => .wr1
  | _ => .rd1

/-- `first_error` as R163 writes it: the checks in order, on the bits of the command word. -/
def firstErrorOfWord (c : Word) (ses : Session) : Option CmdError :=
  let op := opField c
  let rsel := rselField c
  if op = 0x0#4 ∨ op = 0xC#4 ∨ op = 0xD#4 ∨ op = 0xE#4 ∨ op = 0xF#4 then some .illegalOp
  else if (op = 0x3#4 ∨ op = 0x4#4) ∧ (rsel = 6#3 ∨ rsel = 7#3) then some .illegalReg
  else if op = 0xB#4 then some .unsupported
  else if op = 0x1#4 ∧ ses ≠ .uninitialized then some .constructed
  else if 0x2 ≤ op.toNat ∧ op.toNat ≤ 0xA ∧ ses ≠ .ready then some .notReady
  else none

/-- How many steps the sequencer has still to take until it is idle (R30). -/
def stepsLeft (s : State) : Nat :=
  let read := if s.op = some opPixframe then 7 * (Config.frameLen - (readIdx s).toNat - 1) + 2 else 1
  match s.phase with
  | .idle => 0
  | .done => 1
  | .con1 => 14
  | .con2 => 13
  | .con3 => 12
  | .con4 => 11
  | .con5 => 10
  | .con6 => 9
  | .con7 => 8
  | .con8 => 7
  | .con9 => 6
  | .rst1 => 5
  | .rst2 => 4
  | .rst3 => 3
  | .rst4 => 2
  | .wr1 => if s.op = some opPixframe then 4 + 7 * Config.frameLen + 1 else 5
  | .wr2 => if s.op = some opPixframe then 3 + 7 * Config.frameLen + 1 else 4
  | .wr3 => if s.op = some opPixframe then 2 + 7 * Config.frameLen + 1 else 3
  | .wr4 => if s.op = some opPixframe then 1 + 7 * Config.frameLen + 1 else 2
  | .rd1 => 6 + read
  | .rd2 => 5 + read
  | .rd3 => 4 + read
  | .rd4 => 3 + read
  | .rd5 => 2 + read
  | .rd6 => 1 + read
  | .pfs => read

/-! ### The bytes of an operation, counted from its accept step -/

/-- The byte that the `n`-th `Xfer` from state `s` on returns, when `e` events come before it: the `n`-th input, or,
past their end, the free value of that event (R51). -/
def inputByte (s : State) (n e : Nat) : Byte :=
  (s.xferIn[n]?).getD (Config.freeXferByte (s.eventNo + e))

/-- The value byte of the one read of a reading command accepted in state `s` (R86): the second `Xfer`, after `Acc`,
`Lvl`, `Xfer` and `Dir`. -/
def valueByte (s : State) : Byte := inputByte s 1 4

/-- `v_k`, the byte of the `k`-th read of a PIXFRAME accepted in state `s` (R141): two exchanges of the rewind and two of
every earlier read come before its own first. -/
def frameByte (s : State) (k : Nat) : Byte := inputByte s (3 + 2 * k) (8 + 7 * k)

/-- The events of a read transaction of `a` that returns `v`, newest first; `x` is the byte that comes back while the
address is sent (R86). -/
def readEvents (a x v : Byte) : List Event :=
  [.lvl .ncs .high, .dir .mosi .output, .xfer Config.filler v, .dir .mosi .input, .xfer a x, .lvl .ncs .low]

/-- The events of a write transaction of `d` to `a`, newest first (R82). -/
def writeEvents (a d x y : Byte) : List Event :=
  [.lvl .ncs .high, .xfer d y, .xfer a x, .lvl .ncs .low]

/-- The events of the first `k` rounds of a PIXFRAME accepted in state `s`, newest first (R141). -/
def frameEvents (s : State) : Nat → List Event
  | 0 => []
  | k + 1 =>
    .buf (BitVec.ofNat 8 k) (frameByte s k) ::
      readEvents s.cfg.addrPixel (inputByte s (2 + 2 * k) (6 + 7 * k)) (frameByte s k) ++ frameEvents s k

/-- The events of a whole PIXFRAME accepted in state `s` as the word `c`, newest first (R141). -/
def pixframeEvents (s : State) (c : Word) : List Event :=
  .rsp .ok 0#16 :: frameEvents s Config.frameLen ++
    writeEvents s.cfg.addrPixel Config.rewind (inputByte s 0 2) (inputByte s 1 3) ++ [.acc c]

/-- The number of steps of a whole operation, its `Acc` and its `Rsp` counted (R30). -/
def operationSteps (c : Word) (ses : Session) : Nat :=
  if (firstErrorOfWord c ses).isSome then 2
  else
    match (opField c).toNat with
    | 0x1 => 15
    | 0x2 => 6
    | 0x3 => 6
    | 0xA => 2 + 4 + 7 * Config.frameLen
    | _ => 8

/-- A reading command `i`, accepted in state `s`, reads the register at `a` and answers `w` (R85, R100): its accept step
answers a next state, and seven steps later the whole state is `s` but for `op`, `areg`, `rx`, `st`, `val`, the two pins
that are changed and restored, the two bytes used up, and the eight events. -/
def ReadCompletes (i : Instr) (a : Byte) (w : Word) (s : State) : Prop :=
  ∃ t, exec i s = .next t ∧
    t = { s with
          op := some i.opcode, areg := some a, phase := .rd1
          trace := .acc (encode i) :: s.trace, eventNo := s.eventNo + 1 } ∧
    run 7 t = .next
      { s with
        op := some i.opcode, areg := some a, rx := some (valueByte s), st := some .ok, val := some w
        ncs := some .high, dirMosi := some .output, phase := .idle
        xferIn := s.xferIn.drop 2
        trace := .rsp .ok w :: readEvents a (inputByte s 0 2) (valueByte s) ++ .acc (encode i) :: s.trace
        eventNo := s.eventNo + 8 }

/-- The two states differ at most in bytes that came from the sensor and in what holds or reports them: the inputs
themselves, `rx`, `val`, the caller's buffer and the events. -/
def SameButBytes (s t : State) : Prop :=
  t = { s with xferIn := t.xferIn, rx := t.rx, val := t.val, buf := t.buf, trace := t.trace }

/-- The two states differ at most in the elements that only record what was last driven, set or configured (R182). -/
def SameButPins (s t : State) : Prop :=
  t = { s with
        ncs := t.ncs, nreset := t.nreset, dirNreset := t.dirNreset, dirNcs := t.dirNcs, dirMosi := t.dirMosi
        dirMiso := t.dirMiso, clkmode := t.clkmode }

end Sys2Proof.Machine
end

