-- ==== Sys2Proof/Certificates/Slice0/Obligations.lean ====
section
/-! DEFINITION. The statements for the provers. Each docstring names the rule of spec/ that it formalises, or says which
choice of the model it rests on. -/

open Sys2Proof Sys2Proof.Machine

/-! ### Reset, and the invariants -/

/-- R180: what power-on reset leaves. No event has been made: the list of events is the model's record (log 8). -/
def Obligations.ResetLeavesOnlySessionAndPhase : Prop :=
  State.reset.session = .uninitialized ∧ State.reset.phase = .idle ∧
    State.reset.op = none ∧ State.reset.areg = none ∧ State.reset.dreg = none ∧ State.reset.rx = none ∧
    State.reset.idx = none ∧ State.reset.st = none ∧ State.reset.val = none ∧ State.reset.ncs = none ∧
    State.reset.nreset = none ∧ State.reset.dirNreset = none ∧ State.reset.dirNcs = none ∧
    State.reset.dirMosi = none ∧ State.reset.dirMiso = none ∧ State.reset.clkmode = none ∧
    State.reset.trace = []

/-- The invariants hold at reset. They are the model's own strengthening of what R31, R89 and R27 say; reset is one of the
states of `PowerOn`. -/
def Obligations.ResetMeetsTheInvariants : Prop :=
  PowerOn State.reset ∧ Inv State.reset ∧ BusInv State.reset ∧ PortInv State.reset ∧ UntouchedInv State.reset

/-- The invariants hold in every state that a power-on reset can leave: any binding, any host program, any inputs. -/
def Obligations.PowerOnMeetsTheInvariants : Prop :=
  ∀ s : State, PowerOn s → Inv s ∧ BusInv s ∧ PortInv s ∧ UntouchedInv s

/-- From every state that meets `Inv`, a step gives a state that meets it. -/
def Obligations.StepKeepsTheStateInvariant : Prop :=
  ∀ s t : State, Inv s → step s = .next t → Inv t

/-- From every state that meets `Inv` and `BusInv`, a step keeps the events in the bracket grammar of R89. -/
def Obligations.StepKeepsTheBracketGrammar : Prop :=
  ∀ s t : State, Inv s → BusInv s → step s = .next t → BusInv t

/-- A step keeps `Acc` and `Rsp` alternating, an `Acc` without its `Rsp` exactly while the sequencer is busy (R27). -/
def Obligations.StepKeepsAccAndRspAlternating : Prop :=
  ∀ s t : State, PortInv s → step s = .next t → PortInv t

/-- A step keeps R31 item 5: Uninitialized exactly until a CONSTRUCT is accepted, and untouched pins until then. -/
def Obligations.StepKeepsUntouchedUntilConstruct : Prop :=
  ∀ s t : State, Inv s → UntouchedInv s → step s = .next t → UntouchedInv t

/-- Every reachable state meets all the invariants. -/
def Obligations.ReachableStatesMeetTheInvariants : Prop :=
  ∀ s : State, Reachable s → Inv s ∧ BusInv s ∧ PortInv s ∧ UntouchedInv s

/-- R31, its nine items, which the spec derives from R29, of every state reached from a power-on reset with any binding,
program and inputs. -/
def Obligations.ReachableStatesMeetTheNineItems : Prop :=
  ∀ s : State, Reachable s →
    (s.dirMosi = some .input ↔ s.phase = .rd4 ∨ s.phase = .rd5) ∧
    (s.ncs = some .low ↔ s.phase = .wr2 ∨ s.phase = .wr3 ∨ s.phase = .wr4 ∨ s.phase = .rd2 ∨ s.phase = .rd3 ∨
      s.phase = .rd4 ∨ s.phase = .rd5 ∨ s.phase = .rd6) ∧
    (s.dirMosi = some .input → s.ncs = some .low) ∧
    (∀ t o i, step s = .next t → t.trace = .xfer o i :: s.trace →
      s.ncs = some .low ∧ s.nreset = some .high ∧ s.session = .ready ∧ s.clkmode = some .mode11) ∧
    ((s.session = .uninitialized ↔ ∀ c, Event.acc c ∈ s.trace → opField c ≠ 0x1#4) ∧
      (s.session = .uninitialized →
        s.ncs = none ∧ s.nreset = none ∧ s.dirNreset = none ∧ s.dirNcs = none ∧ s.dirMosi = none ∧
        s.dirMiso = none ∧ s.clkmode = none ∧ ∀ e ∈ s.trace, e.isCollaborator = false)) ∧
    (s.session = .inReset → (s.phase.inConstruct || s.phase.inPulse) = true ∧ s.phase ≠ .idle) ∧
    (s.session = .ready → s.phase = .idle →
      s.ncs = some .high ∧ s.nreset = some .high ∧ s.dirMosi = some .output ∧ s.dirMiso = some .input ∧
      s.dirNcs = some .output ∧ s.dirNreset = some .output ∧ s.clkmode = some .mode11) ∧
    (s.nreset = some .low → s.phase = .con6 ∨ s.phase = .con7 ∨ s.phase = .con8 ∨ s.phase = .con9 ∨
      s.phase = .rst2 ∨ s.phase = .rst3) ∧
    (s.op = some 0xA#4 → (s.phase.inRead = true ∨ s.phase = .pfs) → ∃ i, s.idx = some i ∧ i.toNat ≤ 224)

/-! ### The step relation -/

/-- The graph of R29 over the phases: a step goes along one of its arrows. -/
def Obligations.StepFollowsThePhaseGraph : Prop :=
  ∀ s t : State, step s = .next t → t.phase ∈ graphSucc s.phase

/-- Every step makes exactly one event (R24), and the environment is used exactly as the event says: an `Acc` takes the
command presented, an `Xfer` uses one input, a `Buf` stores one byte; the binding never changes (R198). The lists of
commands and of inputs and the counter of events are the model's form of the environment (logs 1, 3, 4, 9). -/
def Obligations.EveryStepMakesOneEventAndUsesWhatItSays : Prop :=
  ∀ s t : State, step s = .next t →
    ∃ e, t.trace = e :: s.trace ∧ t.eventNo = s.eventNo + 1 ∧ t.cfg = s.cfg ∧
      (if e.isAcc then ∃ c, e = .acc c ∧ s.commands = c :: t.commands else t.commands = s.commands) ∧
      (if e.isXfer then t.xferIn = s.xferIn.tail else t.xferIn = s.xferIn) ∧
      (if e.isBuf then ∃ i v, e = .buf i v ∧ t.buf = Memory.write s.buf i.toNat v else t.buf = s.buf)

/-- A step stores to no slot of the caller's buffer but the one its `Buf` event names, and that slot is one of the 225;
every step of another kind leaves every slot as it was (R28, R40). -/
def Obligations.StepStoresOnlyToTheSlotOfItsEvent : Prop :=
  ∀ s t : State, step s = .next t →
    (∀ i v, t.trace = .buf i v :: s.trace →
      i.toNat ≤ 224 ∧ readSlot t i.toNat = some v ∧ ∀ a, a ≠ i.toNat → readSlot t a = readSlot s a) ∧
    ((∀ i v, t.trace ≠ .buf i v :: s.trace) → ∀ a, readSlot t a = readSlot s a)

/-- A step that decodes a command is `exec` of it at the state with the command taken off the port (R26). -/
def Obligations.StepRunsTheDecodedCommand : Prop :=
  ∀ (s : State) (c : Word) (rest : List Word) (i : Instr),
    s.phase = .idle → s.commands = c :: rest → decode c = .ok i →
      step s = exec i { s with commands := rest }

/-- The sequencer has no step exactly in phase IDLE with no command presented (R26, log 2): this fault and no other
case, and no step is refused. -/
def Obligations.QuiescentExactlyWhenIdleWithoutACommand : Prop :=
  ∀ s : State, (step s = .fault .quiescent ↔ s.phase = .idle ∧ s.commands = []) ∧ ∀ r, step s ≠ .refused r

/-- While an operation runs the command port is not sampled: whatever the host presents there, the step is the same, and
no command is accepted (R26, R54). -/
def Obligations.BusyStepsIgnoreTheCommandPort : Prop :=
  ∀ (s t : State) (l : List Word), s.phase ≠ .idle → step s = .next t →
    step { s with commands := l } = .next { t with commands := l } ∧ t.op = s.op ∧
      ∀ c, t.trace ≠ .acc c :: s.trace

/-- In a state that meets the invariant an operation in progress always has its next step. -/
def Obligations.BusyStepsNeverStop : Prop :=
  ∀ s : State, Inv s → s.phase ≠ .idle → ∃ t, step s = .next t

/-- R30, which the spec derives from R29: from any phase other than IDLE the sequencer comes to IDLE within the bound, and an
accepted command takes exactly the number of steps R30 gives it, being busy in all between. That every collaborator call
returns is R25's own assumption (log 10). -/
def Obligations.EveryOperationEndsInItsNumberOfSteps : Prop :=
  (∀ s : State, Inv s → stepsLeft s ≤ 1580 ∧ ∃ t, run (stepsLeft s) s = .next t ∧ t.phase = .idle) ∧
  ∀ (s : State) (c : Word) (rest : List Word), Inv s → s.phase = .idle → s.commands = c :: rest →
    ∃ t, run (operationSteps c s.session) s = .next t ∧ t.phase = .idle ∧
      ∀ m u, 0 < m → m < operationSteps c s.session → run m s = .next u → u.phase ≠ .idle

/-- The step of phase DONE responds with what `st` and `val` hold and returns to IDLE; nothing else changes (R27). -/
def Obligations.DoneRespondsAndReturns : Prop :=
  ∀ (s : State) (x : Status) (w : Word), s.phase = .done → s.st = some x → s.val = some w →
    step s = .next { s with phase := .idle, trace := .rsp x w :: s.trace, eventNo := s.eventNo + 1 }

/-! ### The command port: checks and refusals -/

/-- R164: for every 16-bit word presented in phase IDLE, if one of the checks fails (in the order of R163, on the bits of
the word), the step takes the refusal, and the next step responds and returns to IDLE; nothing else changes. -/
def Obligations.RefusedWordsTakeTheRefusal : Prop :=
  ∀ (s : State) (c : Word) (rest : List Word) (e : CmdError),
    s.phase = .idle → s.commands = c :: rest → firstErrorOfWord c s.session = some e →
      step s = .next
        { s with
          commands := rest, op := some (opField c), st := some e.status, val := some c, phase := .done
          trace := .acc c :: s.trace, eventNo := s.eventNo + 1 } ∧
      run 2 s = .next
        { s with
          commands := rest, op := some (opField c), st := some e.status, val := some c, phase := .idle
          trace := .rsp e.status c :: .acc c :: s.trace, eventNo := s.eventNo + 2 }

/-- The same of `exec` for every command: where a check fails on its word, it takes that refusal and does nothing else. -/
def Obligations.ExecOfARefusedCommandTakesTheRefusal : Prop :=
  ∀ (i : Instr) (s : State) (e : CmdError), firstErrorOfWord (encode i) s.session = some e →
    exec i s = .next
      { s with
        op := some i.opcode, st := some e.status, val := some (encode i), phase := .done
        trace := .acc (encode i) :: s.trace, eventNo := s.eventNo + 1 }

/-- A word that fails no check is carried out: it decodes, the step is `exec` of it, and the phase is the one that R29's
graph gives its opcode (R26, R29). -/
def Obligations.AcceptedWordsStartTheirOperation : Prop :=
  ∀ (s : State) (c : Word) (rest : List Word),
    s.phase = .idle → s.commands = c :: rest → firstErrorOfWord c s.session = none →
      ∃ i t, decode c = .ok i ∧ exec i { s with commands := rest } = .next t ∧ step s = .next t ∧
        t.phase = acceptTarget (opField c) ∧ t.op = some (opField c) ∧ t.trace = .acc c :: s.trace ∧
        t.commands = rest

/-- Unused bits select nothing: with every one of them zero the checks give the same, and a command that passes them does
the same, but that its `Acc` event shows the other word (R61). -/
def Obligations.UnusedBitsAreIgnored : Prop :=
  ∀ (i : Instr) (s : State),
    firstError i.canonical s.session = firstError i s.session ∧
    (firstError i s.session = none →
      ∃ t, exec i s = .next t ∧
        exec i.canonical s = .next { t with trace := .acc (encode i.canonical) :: s.trace })

/-! ### Encoding -/

/-- Decoding an encoded command gives it back, every operand and every unused bit at every value. -/
def Obligations.DecodeOfEncodeIsTheCommand : Prop :=
  ∀ i : Instr, decode (encode i) = .ok i

/-- Encoding a decoded word gives the word back. -/
def Obligations.EncodeOfDecodeIsTheWord : Prop :=
  ∀ (c : Word) (i : Instr), decode c = .ok i → encode i = c

/-- The decoder rejects exactly the opcodes 0x0 and 0xC to 0xF, by name (R67). -/
def Obligations.ReservedOpcodesAreRejectedByName : Prop :=
  ∀ (c : Word) (op : BitVec 4), decode c = .error (.reservedOpcode op) ↔
    op = opField c ∧ (op = 0x0#4 ∨ op = 0xC#4 ∨ op = 0xD#4 ∨ op = 0xE#4 ∨ op = 0xF#4)

/-- One word of each family, written from the tables of R60, R62 and R63, decodes to what it stands for. -/
def Obligations.WordsOfEachFamilyDecode : Prop :=
  decode 0b0001000000000000#16 = .ok (.construct 0) ∧
    decode 0b0010000000000000#16 = .ok (.reset 0) ∧
    decode 0b0011010100000001#16 = .ok (.wrreg 0 .mode 0x01#8) ∧
    decode 0b0011110100000001#16 = .ok (.wrreg 1 .mode 0x01#8) ∧
    decode 0b0100001111111111#16 = .ok (.rdreg 0 .squal 0xFF#8) ∧
    decode 0b0101111111111111#16 = .ok (.motion 0xFFF#12) ∧
    decode 0b1010000000000000#16 = .ok (.pixframe 0) ∧
    decode 0b1011000000000000#16 = .ok (.isatt 0)

/-- The response word has the status code in bits 18:16 and the value in bits 15:0, and the codes are those of R66. -/
def Obligations.ResponseWordHasStatusAboveValue : Prop :=
  (∀ (x : Status) (w : Word),
    (responseWord x w).extractLsb' 16 3 = x.code ∧ (responseWord x w).extractLsb' 0 16 = w) ∧
    Status.ok.code = 0#3 ∧ Status.errNotReady.code = 1#3 ∧ Status.errUnsupported.code = 2#3 ∧
    Status.errIllegalOp.code = 3#3 ∧ Status.errIllegalReg.code = 4#3 ∧ Status.errConstructed.code = 5#3

/-! ### The bus transactions -/

/-- R82 and R83: the four steps of the write transaction, its two continuations, which commands come to WR4 (an
inference that the spec draws from R29), and the data pin Output throughout. -/
def Obligations.WriteTransactionStepsAndContinuation : Prop :=
  (∀ (s : State) (a d : Byte), s.areg = some a → s.dreg = some d →
    (s.phase = .wr1 → step s = .next
      { s with
        ncs := some .low, phase := .wr2, trace := .lvl .ncs .low :: s.trace, eventNo := s.eventNo + 1 }) ∧
    (s.phase = .wr2 → step s = .next
      { s with
        phase := .wr3, trace := .xfer a (inputByte s 0 0) :: s.trace, xferIn := s.xferIn.tail
        eventNo := s.eventNo + 1 }) ∧
    (s.phase = .wr3 → step s = .next
      { s with
        phase := .wr4, trace := .xfer d (inputByte s 0 0) :: s.trace, xferIn := s.xferIn.tail
        eventNo := s.eventNo + 1 }) ∧
    (s.phase = .wr4 → s.op = some 0xA#4 → step s = .next
      { s with
        ncs := some .high, idx := some 0#8, phase := .rd1
        trace := .lvl .ncs .high :: s.trace, eventNo := s.eventNo + 1 }) ∧
    (s.phase = .wr4 → s.op ≠ some 0xA#4 → step s = .next
      { s with
        ncs := some .high, st := some .ok, val := some 0x0000#16, phase := .done
        trace := .lvl .ncs .high :: s.trace, eventNo := s.eventNo + 1 })) ∧
  ∀ s : State, Reachable s →
    (s.phase = .wr4 → s.op = some 0x3#4 ∨ s.op = some 0xA#4) ∧
    (s.phase.inWrite = true → s.dirMosi = some .output)

/-- R86 and R87: the six steps of the read transaction, its two continuations with the result of each command, which
commands come to RD6 (an inference that the spec draws from R29), and the pins from before the first step to the last. -/
def Obligations.ReadTransactionStepsAndContinuation : Prop :=
  (∀ (s : State) (a : Byte), s.areg = some a →
    (s.phase = .rd1 → step s = .next
      { s with
        ncs := some .low, phase := .rd2, trace := .lvl .ncs .low :: s.trace, eventNo := s.eventNo + 1 }) ∧
    (s.phase = .rd2 → step s = .next
      { s with
        phase := .rd3, trace := .xfer a (inputByte s 0 0) :: s.trace, xferIn := s.xferIn.tail
        eventNo := s.eventNo + 1 }) ∧
    (s.phase = .rd3 → step s = .next
      { s with
        dirMosi := some .input, phase := .rd4, trace := .dir .mosi .input :: s.trace
        eventNo := s.eventNo + 1 }) ∧
    (s.phase = .rd4 → step s = .next
      { s with
        rx := some (inputByte s 0 0), phase := .rd5, trace := .xfer 0x00#8 (inputByte s 0 0) :: s.trace
        xferIn := s.xferIn.tail, eventNo := s.eventNo + 1 }) ∧
    (s.phase = .rd5 → step s = .next
      { s with
        dirMosi := some .output, phase := .rd6, trace := .dir .mosi .output :: s.trace
        eventNo := s.eventNo + 1 }) ∧
    (s.phase = .rd6 → s.op = some 0xA#4 → step s = .next
      { s with
        ncs := some .high, phase := .pfs, trace := .lvl .ncs .high :: s.trace, eventNo := s.eventNo + 1 }) ∧
    (∀ (v : Byte) (o : BitVec 4) (w : Word), s.phase = .rd6 → s.rx = some v → s.op = some o →
      ((o = 0x4#4 ∨ o = 0x8#4) ∧ w = BitVec.ofNat 16 v.toNat ∨
        o = 0x5#4 ∧ w = (if 128 ≤ v.toNat then 1#16 else 0#16) ∨
        (o = 0x6#4 ∨ o = 0x7#4) ∧ w = BitVec.ofInt 16 (s8 v) ∨
        o = 0x9#4 ∧ w = (if v = 0x00#8 then 500#16 else 1000#16)) →
      step s = .next
        { s with
          ncs := some .high, st := some .ok, val := some w, phase := .done
          trace := .lvl .ncs .high :: s.trace, eventNo := s.eventNo + 1 })) ∧
  ∀ s : State, Reachable s →
    (s.phase = .rd6 → ∃ o, s.op = some o ∧ 0x4 ≤ o.toNat ∧ o.toNat ≤ 0xA) ∧
    (s.phase.inRead = true → s.dirMiso = some .input) ∧
    (s.phase = .rd1 → s.ncs = some .high) ∧
    (s.phase = .rd1 ∨ s.phase = .rd2 ∨ s.phase = .rd3 ∨ s.phase = .rd6 → s.dirMosi = some .output)

/-- R88, which the spec derives from R86: the data pin is Input exactly in the window of a read, and the one byte sent in that window is the filler; every
other exchange is made while it is Output. -/
def Obligations.DataPinListensOnlyForTheFiller : Prop :=
  ∀ s : State, Reachable s →
    (s.dirMosi = some .input ↔ s.phase = .rd4 ∨ s.phase = .rd5) ∧
    ∀ t o i, step s = .next t → t.trace = .xfer o i :: s.trace →
      (s.dirMosi = some .input ∧ s.phase = .rd4 ∧ o = 0x00#8) ∨
      (s.dirMosi = some .output ∧ (s.phase = .wr2 ∨ s.phase = .wr3 ∨ s.phase = .rd2))

/-- No byte that the sensor returns steers the sequencer (R51, R84): in two runs that differ only in such bytes the
phases, the session, the pins and every other element stay the same, step for step. -/
def Obligations.SensorBytesDoNotSteer : Prop :=
  ∀ (k : Nat) (s s' t : State), SameButBytes s s' → run k s = .next t →
    ∃ t', run k s' = .next t' ∧ SameButBytes t t'

/-- The bytes that come back at WR2, WR3 and RD2 are dropped: the step is the same for any of them, but for what the
`Xfer` event shows (R84). -/
def Obligations.BytesReceivedWhileSendingAreDropped : Prop :=
  ∀ (s t : State) (l : List Byte), s.phase = .wr2 ∨ s.phase = .wr3 ∨ s.phase = .rd2 → step s = .next t →
    ∃ o i, t.trace = .xfer o i :: s.trace ∧
      step { s with xferIn := l } =
        .next { t with xferIn := l.tail, trace := .xfer o (inputByte { s with xferIn := l } 0 0) :: s.trace } ∧
      t.rx = s.rx

/-- WRREG completes (R81): for every named register and every byte, in the session Ready, its accept step answers the
next state that R81 gives, and five steps later the write is done and answered; nothing else has changed. -/
def Obligations.WrregCompletes : Prop :=
  ∀ (z : BitVec 1) (sel : RegSel) (d a : Byte) (s : State), s.session = .ready → sel.addr s.cfg = some a →
    ∃ t, exec (.wrreg z sel d) s = .next t ∧
      t = { s with
            op := some 0x3#4, areg := some a, dreg := some d, phase := .wr1
            trace := .acc (encode (.wrreg z sel d)) :: s.trace, eventNo := s.eventNo + 1 } ∧
      run 5 t = .next
        { s with
          op := some 0x3#4, areg := some a, dreg := some d, st := some .ok, val := some 0x0000#16
          ncs := some .high, phase := .idle, xferIn := s.xferIn.drop 2
          trace := .rsp .ok 0x0000#16 :: writeEvents a d (inputByte s 0 2) (inputByte s 1 3) ++
            .acc (encode (.wrreg z sel d)) :: s.trace
          eventNo := s.eventNo + 6 }

/-- RDREG completes (R85): for every named register, in the session Ready; the answer is the byte, zero-extended. -/
def Obligations.RdregCompletes : Prop :=
  ∀ (z : BitVec 1) (sel : RegSel) (u a : Byte) (s : State), s.session = .ready → sel.addr s.cfg = some a →
    ReadCompletes (.rdreg z sel u) a (BitVec.ofNat 16 (valueByte s).toNat) s

/-- R90, which the spec derives from R81, R85 and R55: with the echo harness, a WRREG followed by a RDREG of the same
register answers the byte written. -/
def Obligations.EchoHarnessReturnsTheWrittenByte : Prop :=
  ∀ (s : State) (z z' : BitVec 1) (sel : RegSel) (d u : Byte) (rest : List Word),
    Reachable s → s.session = .ready → s.phase = .idle → sel.isReserved = false →
    s.commands = encode (.wrreg z sel d) :: encode (.rdreg z' sel u) :: rest →
      ∃ t older, runWith echoReply 14 s = .next t ∧ t.phase = .idle ∧
        t.trace = .rsp .ok (BitVec.ofNat 16 d.toNat) :: older

/-! ### The typed reads -/

/-- MOTION completes (R101): it reads the motion register and answers 1 when the byte is 128 or more, else 0. -/
def Obligations.MotionCompletes : Prop :=
  ∀ (u : BitVec 12) (s : State), s.session = .ready →
    ReadCompletes (.motion u) s.cfg.addrMotion (if 128 ≤ (valueByte s).toNat then 0x0001#16 else 0x0000#16) s

/-- DELTAX completes (R103): it reads the delta-x register and answers the byte read as a signed number. -/
def Obligations.DeltaxCompletes : Prop :=
  ∀ (u : BitVec 12) (s : State), s.session = .ready →
    ReadCompletes (.deltax u) s.cfg.addrDeltaX (BitVec.ofInt 16 (s8 (valueByte s))) s

/-- DELTAY completes (R105): the same of the delta-y register. -/
def Obligations.DeltayCompletes : Prop :=
  ∀ (u : BitVec 12) (s : State), s.session = .ready →
    ReadCompletes (.deltay u) s.cfg.addrDeltaY (BitVec.ofInt 16 (s8 (valueByte s))) s

/-- SQUAL completes (R107): it answers the raw byte, unchanged, whatever it is. -/
def Obligations.SqualCompletes : Prop :=
  ∀ (u : BitVec 12) (s : State), s.session = .ready →
    ReadCompletes (.squal u) s.cfg.addrSqual (BitVec.ofNat 16 (valueByte s).toNat) s

/-- RESMODE completes (R109): it answers 500 when the byte is 0, else 1000. -/
def Obligations.ResmodeCompletes : Prop :=
  ∀ (u : BitVec 12) (s : State), s.session = .ready →
    ReadCompletes (.resmode u) s.cfg.addrMode (if valueByte s = 0x00#8 then 500#16 else 1000#16) s

/-- On the bus a typed command cannot be told from RDREG of the same register (R100): accepted in one and the same state,
the two make the same events on the collaborators. -/
def Obligations.TypedReadsLookLikeRdregOnTheBus : Prop :=
  ∀ (i : Instr) (sel : RegSel) (z : BitVec 1) (u : Byte) (s : State), s.session = .ready →
    ((∃ x, i = .motion x) ∧ sel = .motion ∨ (∃ x, i = .deltax x) ∧ sel = .deltaX ∨
      (∃ x, i = .deltay x) ∧ sel = .deltaY ∨ (∃ x, i = .squal x) ∧ sel = .squal ∨
      (∃ x, i = .resmode x) ∧ sel = .mode) →
    ∃ t₁ u₁ t₂ u₂, exec i s = .next t₁ ∧ run 7 t₁ = .next u₁ ∧
      exec (.rdreg z sel u) s = .next t₂ ∧ run 7 t₂ = .next u₂ ∧
      u₁.trace.filter Event.isCollaborator = u₂.trace.filter Event.isCollaborator

/-- Under H_MOTION (R47; its form here is the model's, logs 18 to 20) a second MOTION right after a first answers 0 unless
motion came between the two (R101). -/
def Obligations.SecondMotionIsZeroWithoutNewMotion : Prop :=
  ∀ (s : State) (c c' : Word) (rest : List Word) (moved : Nat → Bool),
    Reachable s → s.session = .ready → s.phase = .idle → s.commands = c :: c' :: rest →
    opField c = 0x5#4 → opField c' = 0x5#4 →
      ∃ t, run 16 s = .next t ∧ t.st = some .ok ∧
        (HMotion s.cfg moved (txns t.trace) → moved ((txns s.trace).length + 1) = false → t.val = some 0x0000#16)

/-- Under H_DELTA (R48; its form here is the model's, logs 18 to 21) DELTAX and DELTAY answer the count of their axis since its last read, where the count is one that
a byte can hold. -/
def Obligations.DeltaReadsAnswerTheCount : Prop :=
  ∀ (s : State) (c : Word) (rest : List Word) (count : Nat → Int) (reg : Byte),
    Reachable s → s.session = .ready → s.phase = .idle → s.commands = c :: rest →
    (opField c = 0x6#4 ∧ reg = s.cfg.addrDeltaX ∨ opField c = 0x7#4 ∧ reg = s.cfg.addrDeltaY) →
      ∃ t w, run 8 s = .next t ∧ t.st = some .ok ∧ t.val = some w ∧
        (HDelta reg count (txns t.trace) → -128 ≤ deltaCount reg count (txns s.trace) →
          deltaCount reg count (txns s.trace) ≤ 127 → w.toInt = deltaCount reg count (txns s.trace))

/-- Under H_RANGE (R49; its form here is the model's, log 18) SQUAL answers at most 144; without it, the byte is answered
all the same (R107). -/
def Obligations.SqualStaysInRangeUnderTheHypothesis : Prop :=
  ∀ (s : State) (c : Word) (rest : List Word),
    Reachable s → s.session = .ready → s.phase = .idle → s.commands = c :: rest → opField c = 0x8#4 →
      ∃ t, run 8 s = .next t ∧ t.st = some .ok ∧ t.val = some (BitVec.ofNat 16 (valueByte s).toNat) ∧
        (HRange s.cfg (txns t.trace) → (valueByte s).toNat ≤ 144)

/-! ### The session commands -/

/-- R122: the nine steps of the construct sequence, in the order that rule gives them. -/
def Obligations.ConstructSequenceSteps : Prop :=
  ∀ s : State,
    (s.phase = .con1 → step s = .next
      { s with
        dirNreset := some .output, phase := .con2
        trace := .dir .nreset .output :: s.trace, eventNo := s.eventNo + 1 }) ∧
    (s.phase = .con2 → step s = .next
      { s with
        dirNcs := some .output, phase := .con3
        trace := .dir .ncs .output :: s.trace, eventNo := s.eventNo + 1 }) ∧
    (s.phase = .con3 → step s = .next
      { s with
        dirMosi := some .output, phase := .con4
        trace := .dir .mosi .output :: s.trace, eventNo := s.eventNo + 1 }) ∧
    (s.phase = .con4 → step s = .next
      { s with
        dirMiso := some .input, phase := .con5
        trace := .dir .miso .input :: s.trace, eventNo := s.eventNo + 1 }) ∧
    (s.phase = .con5 → step s = .next
      { s with
        nreset := some .low, phase := .con6
        trace := .lvl .nreset .low :: s.trace, eventNo := s.eventNo + 1 }) ∧
    (s.phase = .con6 → step s = .next
      { s with
        ncs := some .high, phase := .con7
        trace := .lvl .ncs .high :: s.trace, eventNo := s.eventNo + 1 }) ∧
    (s.phase = .con7 → step s = .next
      { s with
        clkmode := some .mode11, phase := .con8
        trace := .cfg .mode11 :: s.trace, eventNo := s.eventNo + 1 }) ∧
    (s.phase = .con8 → step s = .next
      { s with
        phase := .con9, trace := .sleep s.cfg.tStartupMs :: s.trace, eventNo := s.eventNo + 1 }) ∧
    (s.phase = .con9 → step s = .next
      { s with
        nreset := some .high, phase := .rst1
        trace := .lvl .nreset .high :: s.trace, eventNo := s.eventNo + 1 })

/-- R127: the four steps of the reset pulse; the last makes the session Ready and goes to DONE whatever the opcode. -/
def Obligations.ResetPulseSteps : Prop :=
  ∀ s : State,
    (s.phase = .rst1 → step s = .next
      { s with
        nreset := some .low, phase := .rst2
        trace := .lvl .nreset .low :: s.trace, eventNo := s.eventNo + 1 }) ∧
    (s.phase = .rst2 → step s = .next
      { s with
        phase := .rst3, trace := .sleep s.cfg.tSettleMs :: s.trace, eventNo := s.eventNo + 1 }) ∧
    (s.phase = .rst3 → step s = .next
      { s with
        nreset := some .high, phase := .rst4
        trace := .lvl .nreset .high :: s.trace, eventNo := s.eventNo + 1 }) ∧
    (s.phase = .rst4 → step s = .next
      { s with
        session := .ready, st := some .ok, val := some 0x0000#16, phase := .done
        trace := .sleep s.cfg.tSettleMs :: s.trace, eventNo := s.eventNo + 1 })

/-- CONSTRUCT completes (R121): in the session Uninitialized, its accept step answers the next state that R121 gives, and
fourteen steps later the pins are set up, the pulse is done, the session is Ready and the answer is OK; `areg`, `dreg`,
`rx`, `idx` and the buffer are untouched, and no byte has been exchanged. -/
def Obligations.ConstructCompletes : Prop :=
  ∀ (u : BitVec 12) (s : State), s.session = .uninitialized →
    ∃ t, exec (.construct u) s = .next t ∧
      t = { s with
            session := .inReset, op := some 0x1#4, phase := .con1
            trace := .acc (encode (.construct u)) :: s.trace, eventNo := s.eventNo + 1 } ∧
      run 14 t = .next
        { s with
          session := .ready, op := some 0x1#4, st := some .ok, val := some 0x0000#16, phase := .idle
          ncs := some .high, nreset := some .high
          dirNreset := some .output, dirNcs := some .output, dirMosi := some .output, dirMiso := some .input
          clkmode := some .mode11
          trace :=
            [.rsp .ok 0x0000#16, .sleep s.cfg.tSettleMs, .lvl .nreset .high, .sleep s.cfg.tSettleMs,
              .lvl .nreset .low, .lvl .nreset .high, .sleep s.cfg.tStartupMs, .cfg .mode11, .lvl .ncs .high,
              .lvl .nreset .low, .dir .miso .input, .dir .mosi .output, .dir .ncs .output, .dir .nreset .output,
              .acc (encode (.construct u))] ++ s.trace
          eventNo := s.eventNo + 15 }

/-- RESET completes (R126): in the session Ready, the accept step makes it InReset, and five steps later the pulse is
done, the session is Ready again and the answer is OK; nothing else has changed. -/
def Obligations.ResetCompletes : Prop :=
  ∀ (u : BitVec 12) (s : State), s.session = .ready →
    ∃ t, exec (.reset u) s = .next t ∧
      t = { s with
            session := .inReset, op := some 0x2#4, phase := .rst1
            trace := .acc (encode (.reset u)) :: s.trace, eventNo := s.eventNo + 1 } ∧
      run 5 t = .next
        { s with
          session := .ready, op := some 0x2#4, st := some .ok, val := some 0x0000#16, phase := .idle
          nreset := some .high
          trace :=
            [.rsp .ok 0x0000#16, .sleep s.cfg.tSettleMs, .lvl .nreset .high, .sleep s.cfg.tSettleMs,
              .lvl .nreset .low, .acc (encode (.reset u))] ++ s.trace
          eventNo := s.eventNo + 6 }

/-- R131: ISATT, in every session state, is accepted and answers Unsupported with its whole word; it makes no event on a
collaborator and changes nothing but `op`, `st`, `val` and the phase. -/
def Obligations.IsattAlwaysAnswersUnsupported : Prop :=
  ∀ (u : BitVec 12) (s : State),
    ∃ t, exec (.isatt u) s = .next t ∧
      t = { s with
            op := some 0xB#4, st := some .errUnsupported, val := some (encode (.isatt u)), phase := .done
            trace := .acc (encode (.isatt u)) :: s.trace, eventNo := s.eventNo + 1 } ∧
      run 1 t = .next
        { s with
          op := some 0xB#4, st := some .errUnsupported, val := some (encode (.isatt u)), phase := .idle
          trace := .rsp .errUnsupported (encode (.isatt u)) :: .acc (encode (.isatt u)) :: s.trace
          eventNo := s.eventNo + 2 }

/-- The only changes of the session (R120): Uninitialized to InReset at the accept of a CONSTRUCT, InReset to Ready at
RST4, Ready to InReset at the accept of a RESET. -/
def Obligations.SessionChangesOnlyAsListed : Prop :=
  ∀ s t : State, Inv s → step s = .next t →
    t.session = s.session ∨
    (s.session = .uninitialized ∧ t.session = .inReset ∧ ∃ c, t.trace = .acc c :: s.trace ∧ opField c = 0x1#4) ∨
    (s.session = .inReset ∧ t.session = .ready ∧ s.phase = .rst4) ∨
    (s.session = .ready ∧ t.session = .inReset ∧ ∃ c, t.trace = .acc c :: s.trace ∧ opField c = 0x2#4)

/-- R128, which the spec derives from R122, R127 and R29: from the accept of CONSTRUCT or RESET to the end of RST4 the session is InReset; while it is, no command is
accepted and no `Xfer` event is made. -/
def Obligations.NothingReachesTheBusInReset : Prop :=
  ∀ s : State, Reachable s →
    ((s.phase.inConstruct || s.phase.inPulse) = true ↔ s.session = .inReset) ∧
    ∀ t e, s.session = .inReset → step s = .next t → t.trace = e :: s.trace →
      e.isXfer = false ∧ e.isAcc = false

/-- R181: no step takes a value away from an element that has one, and none makes the session Uninitialized. -/
def Obligations.NoStepReturnsToTheResetState : Prop :=
  ∀ s t : State, step s = .next t →
    (t.session = .uninitialized → s.session = .uninitialized) ∧
    (s.op.isSome → t.op.isSome) ∧ (s.dreg.isSome → t.dreg.isSome) ∧
    (s.rx.isSome → t.rx.isSome) ∧ (s.idx.isSome → t.idx.isSome) ∧ (s.st.isSome → t.st.isSome) ∧
    (s.val.isSome → t.val.isSome) ∧ (s.ncs.isSome → t.ncs.isSome) ∧ (s.nreset.isSome → t.nreset.isSome) ∧
    (s.dirNreset.isSome → t.dirNreset.isSome) ∧ (s.dirNcs.isSome → t.dirNcs.isSome) ∧
    (s.dirMosi.isSome → t.dirMosi.isSome) ∧ (s.dirMiso.isSome → t.dirMiso.isSome) ∧
    (s.clkmode.isSome → t.clkmode.isSome) ∧ (s.areg.isSome → t.areg.isSome)

/-- R182, which the spec derives from R29: in every reachable state the elements that the phase reads hold values, and the elements that record what was
last driven, set or configured are never read: two states that differ only in them take the same step. -/
def Obligations.ElementsAreWrittenBeforeTheyAreRead : Prop :=
  (∀ s : State, Reachable s →
    (s.phase = .wr4 ∨ s.phase = .rd6 → s.op.isSome) ∧
    (s.phase = .done → s.st.isSome ∧ s.val.isSome) ∧
    (s.phase = .wr2 ∨ s.phase = .rd2 → s.areg.isSome) ∧
    (s.phase = .wr3 → s.dreg.isSome) ∧
    (s.phase = .rd6 ∨ s.phase = .pfs → s.rx.isSome) ∧
    (s.phase = .pfs → s.idx.isSome)) ∧
  ∀ s s' t : State, SameButPins s s' → step s = .next t → ∃ t', step s' = .next t' ∧ SameButPins t t'

/-- R197: the three places of a `Sleep` event, and its argument at each. -/
def Obligations.SleepOnlyAtTheThreeWaits : Prop :=
  ∀ (s t : State) (n : Nat), step s = .next t →
    (t.trace = .sleep n :: s.trace ↔
      s.phase = .con8 ∧ n = s.cfg.tStartupMs ∨ (s.phase = .rst2 ∨ s.phase = .rst4) ∧ n = s.cfg.tSettleMs)

/-! ### The pixel frame -/

/-- R144: the pixel store, at a slot that is not the last and at the last; it comes between two transactions. -/
def Obligations.PixelStoreStep : Prop :=
  (∀ (s : State) (i v : Byte), s.phase = .pfs → s.idx = some i → s.rx = some v →
    (i.toNat + 1 < 225 → step s = .next
      { s with
        buf := Memory.write s.buf i.toNat v, idx := some (BitVec.ofNat 8 (i.toNat + 1)), phase := .rd1
        trace := .buf i v :: s.trace, eventNo := s.eventNo + 1 }) ∧
    (i.toNat + 1 = 225 → step s = .next
      { s with
        buf := Memory.write s.buf i.toNat v, idx := some 225#8, st := some .ok, val := some 0x0000#16
        phase := .done, trace := .buf i v :: s.trace, eventNo := s.eventNo + 1 })) ∧
  ∀ s : State, Reachable s → s.phase = .pfs → s.ncs = some .high ∧ s.dirMosi = some .output

/-- A store to a slot that does not exist stops by name (R28, R40; the model's form of it, log 9): the only fault of a
step that is not the quiescent one, and no reachable state takes it. -/
def Obligations.StoreBeyondTheLastSlotStops : Prop :=
  (∀ (s : State) (i : Byte), s.phase = .pfs → s.idx = some i → 225 ≤ i.toNat → step s = .fault (.noSuchSlot i)) ∧
    ∀ (s : State) (i : Byte), Reachable s → step s ≠ .fault (.noSuchSlot i)

/-- PIXFRAME completes (R141, R148): in the session Ready, its accept step answers the next state that R141 gives; 1580
steps later slot `k` of the buffer holds `v_k` for every `k` below 225, every other slot is as it was, the events are
those of R141, and nothing has changed but what R141 lists. -/
def Obligations.PixframeCompletes : Prop :=
  ∀ (u : BitVec 12) (s : State), s.session = .ready →
    ∃ t r, exec (.pixframe u) s = .next t ∧
      t = { s with
            op := some 0xA#4, areg := some s.cfg.addrPixel, dreg := some 0x00#8, phase := .wr1
            trace := .acc (encode (.pixframe u)) :: s.trace, eventNo := s.eventNo + 1 } ∧
      run 1580 t = .next r ∧
      (∀ k, k < 225 → readSlot r k = some (frameByte s k)) ∧
      (∀ k, 225 ≤ k → readSlot r k = readSlot s k) ∧
      r = { s with
            op := some 0xA#4, areg := some s.cfg.addrPixel, dreg := some 0x00#8
            rx := some (frameByte s 224), idx := some 225#8, st := some .ok, val := some 0x0000#16
            ncs := some .high, dirMosi := some .output, phase := .idle, buf := r.buf
            xferIn := s.xferIn.drop 452
            trace := pixframeEvents s (encode (.pixframe u)) ++ s.trace
            eventNo := s.eventNo + 1581 }

/-- The counts of one PIXFRAME (R146), and the slots of its stores: 0 to 224, in order, each once (R145). -/
def Obligations.PixframeCounts : Prop :=
  ∀ (s : State) (c : Word) (rest : List Word),
    s.session = .ready → s.phase = .idle → s.commands = c :: rest → opField c = 0xA#4 →
      ∃ t ev, run 1581 s = .next t ∧ t.trace = ev ++ s.trace ∧ ev.length = 1581 ∧
        ev.count (.lvl .ncs .low) = 226 ∧ ev.count (.lvl .ncs .high) = 226 ∧
        ev.countP Event.isXfer = 452 ∧ ev.countP Event.isDir = 450 ∧ ev.countP Event.isBuf = 225 ∧
        ev.countP Event.isSleep = 0 ∧ (∀ m, Event.cfg m ∉ ev) ∧ (∀ l, Event.lvl .nreset l ∉ ev) ∧
        (∀ d, Event.dir .nreset d ∉ ev) ∧
        ev.reverse.filterMap Event.slot = List.range 225

/-- Under H_PIXEL (R50; its form here is the model's, logs 18 and 19) the caller's buffer holds the frame after a PIXFRAME: slot `k` holds sample `k` (R147, R148). -/
def Obligations.PixframeFillsTheBufferWithTheFrame : Prop :=
  ∀ (s : State) (c : Word) (rest : List Word) (frame : Nat → Nat → Byte),
    Reachable s → s.session = .ready → s.phase = .idle → s.commands = c :: rest → opField c = 0xA#4 →
      ∃ t, run 1581 s = .next t ∧ t.phase = .idle ∧ t.st = some .ok ∧
        (HPixel s.cfg frame (txns t.trace) →
          ∀ k, k < 225 → readSlot t k = some (frame (rewinds s.cfg (txns s.trace) + 1) k))

/-- With the pixel harness of R55 on the bus (its cursor before a first rewind and past the list: log 15), a PIXFRAME copies
its list into the caller's buffer (vector V-PIX). -/
def Obligations.PixelHarnessFillsTheBuffer : Prop :=
  ∀ (s : State) (c : Word) (rest : List Word) (pix : List Byte),
    Reachable s → s.session = .ready → s.phase = .idle → s.commands = c :: rest → opField c = 0xA#4 →
    pix.length = 225 →
      ∃ t, runWith (pixelReply s.cfg pix) 1581 s = .next t ∧ t.phase = .idle ∧
        ∀ k, k < 225 → readSlot t k = pix[k]?
end

