-- ==== Sys2Proof/Laws/Bus.lean ====
section
/-! SUPPORT. How the bus comes to hold a byte that was read, and which event an exchange is: the small facts about Bus.lean
that later proofs cite. -/

namespace Sys2Proof.Machine

theorem busPos_cons (e : Event) (older : List Event) :
    busPos (e :: older) = (busPos older).bind (fun b => b.move e.onBus) := rfl

/-- Only the second exchange of a read gives its value. -/
theorem BusPos.move_eq_valued {b : BusPos} {e : BusEvent} {a v : Byte} (h : b.move e = some (.valued a v)) :
    b = .turned a ∧ ∃ o, e = .exchange o v := by
  cases b <;> cases e <;> simp_all [BusPos.move]

/-- Only setting the data pin back to Output comes to the end of a read, and it keeps the value. -/
theorem BusPos.move_eq_restored {b : BusPos} {e : BusEvent} {a v : Byte} (h : b.move e = some (.restored a v)) :
    b = .valued a v ∧ e = .talk := by
  cases b <;> cases e <;> simp_all [BusPos.move]

/-- Only an `Xfer` is an exchange. -/
theorem Event.onBus_eq_exchange {e : Event} {o i : Byte} (h : e.onBus = .exchange o i) : e = .xfer o i := by
  cases e with
  | xfer o' i' => injection h with ho hi; rw [ho, hi]
  | dir p d => cases p <;> cases d <;> cases h
  | lvl p l => cases p <;> cases l <;> cases h
  | cfg m => cases h
  | sleep t => cases h
  | acc c => cases h
  | buf i' v => cases h
  | rsp s w => cases h

/-- A finished read was at its end. -/
theorem BusPos.txn_eq_read {b : BusPos} {a v : Byte} (h : b.txn = some (.read a v)) : b = .restored a v := by
  cases b <;> simp_all [BusPos.txn]

end Sys2Proof.Machine
end

