-- ==== Sys2Proof/Laws/Decode.lean ====
section
/-! SUPPORT. The fields of an encoded command, and the selector's two directions: the small facts about Decode.lean that
later proofs cite. -/

namespace Sys2Proof

@[simp] theorem opField_encode (i : Instr) : opField (encode i) = i.opcode := by
  apply BitVec.eq_of_getLsbD_eq
  intro k hk
  simp only [opField, encode, BitVec.getLsbD_extractLsb', BitVec.getLsbD_append]
  simp [hk]

@[simp] theorem restField_encode (i : Instr) : restField (encode i) = i.operandBits := by
  apply BitVec.eq_of_getLsbD_eq
  intro k hk
  simp only [restField, encode, BitVec.getLsbD_extractLsb', BitVec.getLsbD_append]
  simp [hk]

/-- A word is its opcode above its other twelve bits. -/
theorem opField_append_restField (c : Word) : opField c ++ restField c = c := by
  apply BitVec.eq_of_getLsbD_eq
  intro k hk
  simp only [opField, restField, BitVec.getLsbD_append, BitVec.getLsbD_extractLsb']
  by_cases h : k < 12
  · simp [h]
  · simp [h, show k - 12 < 4 by omega, show 12 + (k - 12) = k by omega]

/-- The twelve bits below the opcode are `z`, `rsel` and `data`. -/
theorem restField_eq (c : Word) : restField c = zField c ++ rselField c ++ dataField c := by
  apply BitVec.eq_of_getLsbD_eq
  intro k hk
  simp only [zField, rselField, dataField, restField, BitVec.getLsbD_append, BitVec.getLsbD_extractLsb']
  by_cases h : k < 8
  · simp [h, hk]
  · by_cases h' : k - 8 < 3
    · simp [h, h', hk, show 8 + (k - 8) = k by omega]
    · simp [h, h', hk, show k - 8 - 3 < 1 by omega, show 11 + (k - 8 - 3) = k by omega]

theorem zField_of_rest {c : Word} {z : BitVec 1} {r : BitVec 3} {d : Byte}
    (h : restField c = z ++ r ++ d) : zField c = z := by
  apply BitVec.eq_of_getLsbD_eq
  intro k hk
  have hb := congrArg (fun b => BitVec.getLsbD b (11 + k)) h
  simp only [restField, BitVec.getLsbD_append, BitVec.getLsbD_extractLsb'] at hb
  simpa [zField, hk, show 11 + k < 12 by omega, show ¬ 11 + k < 8 by omega,
    show ¬ 11 + k - 8 < 3 by omega, show 11 + k - 8 - 3 = k by omega] using hb

theorem rselField_of_rest {c : Word} {z : BitVec 1} {r : BitVec 3} {d : Byte}
    (h : restField c = z ++ r ++ d) : rselField c = r := by
  apply BitVec.eq_of_getLsbD_eq
  intro k hk
  have hb := congrArg (fun b => BitVec.getLsbD b (8 + k)) h
  simp only [restField, BitVec.getLsbD_append, BitVec.getLsbD_extractLsb'] at hb
  simpa [rselField, hk, show 8 + k < 12 by omega, show 8 + k - 8 = k by omega] using hb

theorem dataField_of_rest {c : Word} {z : BitVec 1} {r : BitVec 3} {d : Byte}
    (h : restField c = z ++ r ++ d) : dataField c = d := by
  apply BitVec.eq_of_getLsbD_eq
  intro k hk
  have hb := congrArg (fun b => BitVec.getLsbD b k) h
  simp only [restField, BitVec.getLsbD_append, BitVec.getLsbD_extractLsb'] at hb
  simpa [dataField, hk, show k < 12 by omega] using hb

@[simp] theorem RegSel.ofBits_toBits (r : RegSel) : RegSel.ofBits r.toBits = r := by
  cases r <;> rfl

@[simp] theorem RegSel.toBits_ofBits (b : BitVec 3) : (RegSel.ofBits b).toBits = b := by
  revert b; decide

theorem RegSel.isReserved_ofBits (b : BitVec 3) :
    (RegSel.ofBits b).isReserved = (decide (b = 6#3) || decide (b = 7#3)) := by
  revert b; decide

/-- A selector has an address exactly when it is not reserved (R62). -/
theorem RegSel.addr_isSome (cfg : Config) (r : RegSel) : (r.addr cfg).isSome = !r.isReserved := by
  cases r <;> rfl

theorem RegSel.not_reserved_of_addr {cfg : Config} {r : RegSel} {a : Byte} (h : r.addr cfg = some a) :
    r.isReserved = false := by
  have := RegSel.addr_isSome cfg r
  simpa [h] using this.symm

/-- With a distinct binding (R41) two selectors of one address are one selector. -/
theorem RegSel.addr_injective {cfg : Config} (hd : cfg.Distinct) {r q : RegSel} {a : Byte}
    (hr : r.addr cfg = some a) (hq : q.addr cfg = some a) : r = q := by
  have h := hd.1
  simp only [Config.addresses, List.nodup_cons, List.mem_cons, List.not_mem_nil, or_false, not_or] at h
  cases r <;> cases q <;> simp_all [RegSel.addr]

theorem Instr.opcode_canonical (i : Instr) : i.canonical.opcode = i.opcode := by
  cases i <;> rfl

theorem Instr.canonical_canonical (i : Instr) : i.canonical.canonical = i.canonical := by
  cases i <;> rfl

end Sys2Proof
end

