-- ==== Sys2Proof/Laws/Memory.lean ====
section
/-! SUPPORT. The caller's buffer: a store gives its slot the byte and leaves every other slot alone, and keeps the
canonical form. -/

namespace Sys2Proof.Machine

theorem Memory.read_write (m : Memory) (i j : Nat) (v : Byte) :
    Memory.read (Memory.write m i v) j = if j = i then some v else Memory.read m j := by
  induction m with
  | nil => simp [Memory.write, Memory.read]
  | cons c rest ih =>
    obtain ⟨a, w⟩ := c
    by_cases hlt : i < a
    · simp [Memory.write, Memory.read, hlt]
    · by_cases heq : i = a
      · subst heq
        simp only [Memory.write, Memory.read, lt_irrefl, if_true, if_false]
        split <;> rfl
      · simp only [Memory.write, Memory.read, hlt, heq, if_false, ih]
        by_cases hj : j = a
        · simp [hj, show a ≠ i from fun h => heq h.symm]
        · simp [hj]

theorem Memory.read_write_same (m : Memory) (i : Nat) (v : Byte) :
    Memory.read (Memory.write m i v) i = some v := by
  simp [Memory.read_write]

theorem Memory.read_write_other (m : Memory) {i j : Nat} (v : Byte) (h : j ≠ i) :
    Memory.read (Memory.write m i v) j = Memory.read m j := by
  simp [Memory.read_write, h]

theorem Memory.risesFrom_write (m : Memory) (lo i : Nat) (v : Byte) (hlo : lo ≤ i)
    (h : Memory.risesFrom lo m = true) : Memory.risesFrom lo (Memory.write m i v) = true := by
  induction m generalizing lo with
  | nil => simp [Memory.write, Memory.risesFrom, hlo]
  | cons c rest ih =>
    obtain ⟨a, w⟩ := c
    simp only [Memory.risesFrom, Bool.and_eq_true, decide_eq_true_eq] at h
    by_cases hlt : i < a
    · simp [Memory.write, Memory.risesFrom, hlt, hlo, h.2]
    · by_cases heq : i = a
      · subst heq
        simp [Memory.write, Memory.risesFrom, h.1, h.2]
      · simp only [Memory.write, hlt, heq, if_false, Memory.risesFrom, Bool.and_eq_true, decide_eq_true_eq]
        exact ⟨h.1, ih (a + 1) (by omega) h.2⟩

/-- The one operation that changes a buffer keeps it canonical. -/
theorem Memory.wf_write (m : Memory) (i : Nat) (v : Byte) (h : Memory.wf m = true) :
    Memory.wf (Memory.write m i v) = true :=
  Memory.risesFrom_write m 0 i v (Nat.zero_le i) h

theorem readSlot_storeSlot (s : State) (i v : Byte) (j : Nat) :
    readSlot (storeSlot i v s) j = if j = i.toNat then some v else readSlot s j :=
  Memory.read_write s.buf i.toNat j v

theorem State.reset_buf_wf : Memory.wf State.reset.buf = true := by decide

end Sys2Proof.Machine
end

