-- ==== Sys2Proof/Laws/PerInstr.lean ====
section
/-! SUPPORT. A statement about every command, proved one constructor at a time: the opcode and the operand bits of the
encoded word stand where R60 puts them. -/

namespace Sys2Proof.Laws.EncodedFields

/-- The word's bits 15:12 are the command's opcode and its bits 11:0 the operand bits (R60, R63). -/
def Statement (i : Instr) : Prop :=
  opField (encode i) = i.opcode ∧ restField (encode i) = i.operandBits

theorem construct (u : BitVec 12) : Statement (.construct u) := ⟨opField_encode _, restField_encode _⟩
theorem reset (u : BitVec 12) : Statement (.reset u) := ⟨opField_encode _, restField_encode _⟩
theorem wrreg (z : BitVec 1) (sel : RegSel) (data : Byte) : Statement (.wrreg z sel data) :=
  ⟨opField_encode _, restField_encode _⟩
theorem rdreg (z : BitVec 1) (sel : RegSel) (unused : Byte) : Statement (.rdreg z sel unused) :=
  ⟨opField_encode _, restField_encode _⟩
theorem motion (u : BitVec 12) : Statement (.motion u) := ⟨opField_encode _, restField_encode _⟩
theorem deltax (u : BitVec 12) : Statement (.deltax u) := ⟨opField_encode _, restField_encode _⟩
theorem deltay (u : BitVec 12) : Statement (.deltay u) := ⟨opField_encode _, restField_encode _⟩
theorem squal (u : BitVec 12) : Statement (.squal u) := ⟨opField_encode _, restField_encode _⟩
theorem resmode (u : BitVec 12) : Statement (.resmode u) := ⟨opField_encode _, restField_encode _⟩
theorem pixframe (u : BitVec 12) : Statement (.pixframe u) := ⟨opField_encode _, restField_encode _⟩
theorem isatt (u : BitVec 12) : Statement (.isatt u) := ⟨opField_encode _, restField_encode _⟩

end Sys2Proof.Laws.EncodedFields
end

