-- ==== Sys2Proof/Laws/State.lean ====
section
/-! SUPPORT. One lemma for each field of each named update of the state: what the update makes of the field. Each is
true by computation; with them no proof unfolds an update. -/

namespace Sys2Proof.Machine

/-! ### `emit` -/

@[simp] theorem emit_session (e : Event) (s : State) : (emit e s).session = s.session := rfl
@[simp] theorem emit_phase (e : Event) (s : State) : (emit e s).phase = s.phase := rfl
@[simp] theorem emit_op (e : Event) (s : State) : (emit e s).op = s.op := rfl
@[simp] theorem emit_areg (e : Event) (s : State) : (emit e s).areg = s.areg := rfl
@[simp] theorem emit_dreg (e : Event) (s : State) : (emit e s).dreg = s.dreg := rfl
@[simp] theorem emit_rx (e : Event) (s : State) : (emit e s).rx = s.rx := rfl
@[simp] theorem emit_idx (e : Event) (s : State) : (emit e s).idx = s.idx := rfl
@[simp] theorem emit_st (e : Event) (s : State) : (emit e s).st = s.st := rfl
@[simp] theorem emit_val (e : Event) (s : State) : (emit e s).val = s.val := rfl
@[simp] theorem emit_ncs (e : Event) (s : State) : (emit e s).ncs = s.ncs := rfl
@[simp] theorem emit_nreset (e : Event) (s : State) : (emit e s).nreset = s.nreset := rfl
@[simp] theorem emit_dirNreset (e : Event) (s : State) : (emit e s).dirNreset = s.dirNreset := rfl
@[simp] theorem emit_dirNcs (e : Event) (s : State) : (emit e s).dirNcs = s.dirNcs := rfl
@[simp] theorem emit_dirMosi (e : Event) (s : State) : (emit e s).dirMosi = s.dirMosi := rfl
@[simp] theorem emit_dirMiso (e : Event) (s : State) : (emit e s).dirMiso = s.dirMiso := rfl
@[simp] theorem emit_clkmode (e : Event) (s : State) : (emit e s).clkmode = s.clkmode := rfl
@[simp] theorem emit_cfg (e : Event) (s : State) : (emit e s).cfg = s.cfg := rfl
@[simp] theorem emit_commands (e : Event) (s : State) : (emit e s).commands = s.commands := rfl
@[simp] theorem emit_xferIn (e : Event) (s : State) : (emit e s).xferIn = s.xferIn := rfl
@[simp] theorem emit_buf (e : Event) (s : State) : (emit e s).buf = s.buf := rfl
@[simp] theorem emit_trace (e : Event) (s : State) : (emit e s).trace = e :: s.trace := rfl
@[simp] theorem emit_eventNo (e : Event) (s : State) : (emit e s).eventNo = s.eventNo + 1 := rfl

/-! ### `driveNcs` -/

@[simp] theorem driveNcs_session (l : Level) (s : State) : (driveNcs l s).session = s.session := rfl
@[simp] theorem driveNcs_phase (l : Level) (s : State) : (driveNcs l s).phase = s.phase := rfl
@[simp] theorem driveNcs_op (l : Level) (s : State) : (driveNcs l s).op = s.op := rfl
@[simp] theorem driveNcs_areg (l : Level) (s : State) : (driveNcs l s).areg = s.areg := rfl
@[simp] theorem driveNcs_dreg (l : Level) (s : State) : (driveNcs l s).dreg = s.dreg := rfl
@[simp] theorem driveNcs_rx (l : Level) (s : State) : (driveNcs l s).rx = s.rx := rfl
@[simp] theorem driveNcs_idx (l : Level) (s : State) : (driveNcs l s).idx = s.idx := rfl
@[simp] theorem driveNcs_st (l : Level) (s : State) : (driveNcs l s).st = s.st := rfl
@[simp] theorem driveNcs_val (l : Level) (s : State) : (driveNcs l s).val = s.val := rfl
@[simp] theorem driveNcs_ncs (l : Level) (s : State) : (driveNcs l s).ncs = some l := rfl
@[simp] theorem driveNcs_nreset (l : Level) (s : State) : (driveNcs l s).nreset = s.nreset := rfl
@[simp] theorem driveNcs_dirNreset (l : Level) (s : State) : (driveNcs l s).dirNreset = s.dirNreset := rfl
@[simp] theorem driveNcs_dirNcs (l : Level) (s : State) : (driveNcs l s).dirNcs = s.dirNcs := rfl
@[simp] theorem driveNcs_dirMosi (l : Level) (s : State) : (driveNcs l s).dirMosi = s.dirMosi := rfl
@[simp] theorem driveNcs_dirMiso (l : Level) (s : State) : (driveNcs l s).dirMiso = s.dirMiso := rfl
@[simp] theorem driveNcs_clkmode (l : Level) (s : State) : (driveNcs l s).clkmode = s.clkmode := rfl
@[simp] theorem driveNcs_cfg (l : Level) (s : State) : (driveNcs l s).cfg = s.cfg := rfl
@[simp] theorem driveNcs_commands (l : Level) (s : State) : (driveNcs l s).commands = s.commands := rfl
@[simp] theorem driveNcs_xferIn (l : Level) (s : State) : (driveNcs l s).xferIn = s.xferIn := rfl
@[simp] theorem driveNcs_buf (l : Level) (s : State) : (driveNcs l s).buf = s.buf := rfl
@[simp] theorem driveNcs_trace (l : Level) (s : State) : (driveNcs l s).trace = .lvl .ncs l :: s.trace := rfl
@[simp] theorem driveNcs_eventNo (l : Level) (s : State) : (driveNcs l s).eventNo = s.eventNo + 1 := rfl

/-! ### `driveNreset` -/

@[simp] theorem driveNreset_session (l : Level) (s : State) : (driveNreset l s).session = s.session := rfl
@[simp] theorem driveNreset_phase (l : Level) (s : State) : (driveNreset l s).phase = s.phase := rfl
@[simp] theorem driveNreset_op (l : Level) (s : State) : (driveNreset l s).op = s.op := rfl
@[simp] theorem driveNreset_areg (l : Level) (s : State) : (driveNreset l s).areg = s.areg := rfl
@[simp] theorem driveNreset_dreg (l : Level) (s : State) : (driveNreset l s).dreg = s.dreg := rfl
@[simp] theorem driveNreset_rx (l : Level) (s : State) : (driveNreset l s).rx = s.rx := rfl
@[simp] theorem driveNreset_idx (l : Level) (s : State) : (driveNreset l s).idx = s.idx := rfl
@[simp] theorem driveNreset_st (l : Level) (s : State) : (driveNreset l s).st = s.st := rfl
@[simp] theorem driveNreset_val (l : Level) (s : State) : (driveNreset l s).val = s.val := rfl
@[simp] theorem driveNreset_ncs (l : Level) (s : State) : (driveNreset l s).ncs = s.ncs := rfl
@[simp] theorem driveNreset_nreset (l : Level) (s : State) : (driveNreset l s).nreset = some l := rfl
@[simp] theorem driveNreset_dirNreset (l : Level) (s : State) : (driveNreset l s).dirNreset = s.dirNreset := rfl
@[simp] theorem driveNreset_dirNcs (l : Level) (s : State) : (driveNreset l s).dirNcs = s.dirNcs := rfl
@[simp] theorem driveNreset_dirMosi (l : Level) (s : State) : (driveNreset l s).dirMosi = s.dirMosi := rfl
@[simp] theorem driveNreset_dirMiso (l : Level) (s : State) : (driveNreset l s).dirMiso = s.dirMiso := rfl
@[simp] theorem driveNreset_clkmode (l : Level) (s : State) : (driveNreset l s).clkmode = s.clkmode := rfl
@[simp] theorem driveNreset_cfg (l : Level) (s : State) : (driveNreset l s).cfg = s.cfg := rfl
@[simp] theorem driveNreset_commands (l : Level) (s : State) : (driveNreset l s).commands = s.commands := rfl
@[simp] theorem driveNreset_xferIn (l : Level) (s : State) : (driveNreset l s).xferIn = s.xferIn := rfl
@[simp] theorem driveNreset_buf (l : Level) (s : State) : (driveNreset l s).buf = s.buf := rfl
@[simp] theorem driveNreset_trace (l : Level) (s : State) : (driveNreset l s).trace = .lvl .nreset l :: s.trace := rfl
@[simp] theorem driveNreset_eventNo (l : Level) (s : State) : (driveNreset l s).eventNo = s.eventNo + 1 := rfl

/-! ### `configure` -/

@[simp] theorem configure_session (m : ClockMode) (s : State) : (configure m s).session = s.session := rfl
@[simp] theorem configure_phase (m : ClockMode) (s : State) : (configure m s).phase = s.phase := rfl
@[simp] theorem configure_op (m : ClockMode) (s : State) : (configure m s).op = s.op := rfl
@[simp] theorem configure_areg (m : ClockMode) (s : State) : (configure m s).areg = s.areg := rfl
@[simp] theorem configure_dreg (m : ClockMode) (s : State) : (configure m s).dreg = s.dreg := rfl
@[simp] theorem configure_rx (m : ClockMode) (s : State) : (configure m s).rx = s.rx := rfl
@[simp] theorem configure_idx (m : ClockMode) (s : State) : (configure m s).idx = s.idx := rfl
@[simp] theorem configure_st (m : ClockMode) (s : State) : (configure m s).st = s.st := rfl
@[simp] theorem configure_val (m : ClockMode) (s : State) : (configure m s).val = s.val := rfl
@[simp] theorem configure_ncs (m : ClockMode) (s : State) : (configure m s).ncs = s.ncs := rfl
@[simp] theorem configure_nreset (m : ClockMode) (s : State) : (configure m s).nreset = s.nreset := rfl
@[simp] theorem configure_dirNreset (m : ClockMode) (s : State) : (configure m s).dirNreset = s.dirNreset := rfl
@[simp] theorem configure_dirNcs (m : ClockMode) (s : State) : (configure m s).dirNcs = s.dirNcs := rfl
@[simp] theorem configure_dirMosi (m : ClockMode) (s : State) : (configure m s).dirMosi = s.dirMosi := rfl
@[simp] theorem configure_dirMiso (m : ClockMode) (s : State) : (configure m s).dirMiso = s.dirMiso := rfl
@[simp] theorem configure_clkmode (m : ClockMode) (s : State) : (configure m s).clkmode = some m := rfl
@[simp] theorem configure_cfg (m : ClockMode) (s : State) : (configure m s).cfg = s.cfg := rfl
@[simp] theorem configure_commands (m : ClockMode) (s : State) : (configure m s).commands = s.commands := rfl
@[simp] theorem configure_xferIn (m : ClockMode) (s : State) : (configure m s).xferIn = s.xferIn := rfl
@[simp] theorem configure_buf (m : ClockMode) (s : State) : (configure m s).buf = s.buf := rfl
@[simp] theorem configure_trace (m : ClockMode) (s : State) : (configure m s).trace = .cfg m :: s.trace := rfl
@[simp] theorem configure_eventNo (m : ClockMode) (s : State) : (configure m s).eventNo = s.eventNo + 1 := rfl

/-! ### `sleepFor` -/

@[simp] theorem sleepFor_session (t : Nat) (s : State) : (sleepFor t s).session = s.session := rfl
@[simp] theorem sleepFor_phase (t : Nat) (s : State) : (sleepFor t s).phase = s.phase := rfl
@[simp] theorem sleepFor_op (t : Nat) (s : State) : (sleepFor t s).op = s.op := rfl
@[simp] theorem sleepFor_areg (t : Nat) (s : State) : (sleepFor t s).areg = s.areg := rfl
@[simp] theorem sleepFor_dreg (t : Nat) (s : State) : (sleepFor t s).dreg = s.dreg := rfl
@[simp] theorem sleepFor_rx (t : Nat) (s : State) : (sleepFor t s).rx = s.rx := rfl
@[simp] theorem sleepFor_idx (t : Nat) (s : State) : (sleepFor t s).idx = s.idx := rfl
@[simp] theorem sleepFor_st (t : Nat) (s : State) : (sleepFor t s).st = s.st := rfl
@[simp] theorem sleepFor_val (t : Nat) (s : State) : (sleepFor t s).val = s.val := rfl
@[simp] theorem sleepFor_ncs (t : Nat) (s : State) : (sleepFor t s).ncs = s.ncs := rfl
@[simp] theorem sleepFor_nreset (t : Nat) (s : State) : (sleepFor t s).nreset = s.nreset := rfl
@[simp] theorem sleepFor_dirNreset (t : Nat) (s : State) : (sleepFor t s).dirNreset = s.dirNreset := rfl
@[simp] theorem sleepFor_dirNcs (t : Nat) (s : State) : (sleepFor t s).dirNcs = s.dirNcs := rfl
@[simp] theorem sleepFor_dirMosi (t : Nat) (s : State) : (sleepFor t s).dirMosi = s.dirMosi := rfl
@[simp] theorem sleepFor_dirMiso (t : Nat) (s : State) : (sleepFor t s).dirMiso = s.dirMiso := rfl
@[simp] theorem sleepFor_clkmode (t : Nat) (s : State) : (sleepFor t s).clkmode = s.clkmode := rfl
@[simp] theorem sleepFor_cfg (t : Nat) (s : State) : (sleepFor t s).cfg = s.cfg := rfl
@[simp] theorem sleepFor_commands (t : Nat) (s : State) : (sleepFor t s).commands = s.commands := rfl
@[simp] theorem sleepFor_xferIn (t : Nat) (s : State) : (sleepFor t s).xferIn = s.xferIn := rfl
@[simp] theorem sleepFor_buf (t : Nat) (s : State) : (sleepFor t s).buf = s.buf := rfl
@[simp] theorem sleepFor_trace (t : Nat) (s : State) : (sleepFor t s).trace = .sleep t :: s.trace := rfl
@[simp] theorem sleepFor_eventNo (t : Nat) (s : State) : (sleepFor t s).eventNo = s.eventNo + 1 := rfl

/-! ### `exchange` -/

@[simp] theorem exchange_session (o : Byte) (s : State) : (exchange o s).session = s.session := rfl
@[simp] theorem exchange_phase (o : Byte) (s : State) : (exchange o s).phase = s.phase := rfl
@[simp] theorem exchange_op (o : Byte) (s : State) : (exchange o s).op = s.op := rfl
@[simp] theorem exchange_areg (o : Byte) (s : State) : (exchange o s).areg = s.areg := rfl
@[simp] theorem exchange_dreg (o : Byte) (s : State) : (exchange o s).dreg = s.dreg := rfl
@[simp] theorem exchange_rx (o : Byte) (s : State) : (exchange o s).rx = s.rx := rfl
@[simp] theorem exchange_idx (o : Byte) (s : State) : (exchange o s).idx = s.idx := rfl
@[simp] theorem exchange_st (o : Byte) (s : State) : (exchange o s).st = s.st := rfl
@[simp] theorem exchange_val (o : Byte) (s : State) : (exchange o s).val = s.val := rfl
@[simp] theorem exchange_ncs (o : Byte) (s : State) : (exchange o s).ncs = s.ncs := rfl
@[simp] theorem exchange_nreset (o : Byte) (s : State) : (exchange o s).nreset = s.nreset := rfl
@[simp] theorem exchange_dirNreset (o : Byte) (s : State) : (exchange o s).dirNreset = s.dirNreset := rfl
@[simp] theorem exchange_dirNcs (o : Byte) (s : State) : (exchange o s).dirNcs = s.dirNcs := rfl
@[simp] theorem exchange_dirMosi (o : Byte) (s : State) : (exchange o s).dirMosi = s.dirMosi := rfl
@[simp] theorem exchange_dirMiso (o : Byte) (s : State) : (exchange o s).dirMiso = s.dirMiso := rfl
@[simp] theorem exchange_clkmode (o : Byte) (s : State) : (exchange o s).clkmode = s.clkmode := rfl
@[simp] theorem exchange_cfg (o : Byte) (s : State) : (exchange o s).cfg = s.cfg := rfl
@[simp] theorem exchange_commands (o : Byte) (s : State) : (exchange o s).commands = s.commands := rfl
@[simp] theorem exchange_xferIn (o : Byte) (s : State) : (exchange o s).xferIn = s.xferIn.tail := rfl
@[simp] theorem exchange_buf (o : Byte) (s : State) : (exchange o s).buf = s.buf := rfl
@[simp] theorem exchange_trace (o : Byte) (s : State) : (exchange o s).trace = .xfer o (nextXferByte s) :: s.trace := rfl
@[simp] theorem exchange_eventNo (o : Byte) (s : State) : (exchange o s).eventNo = s.eventNo + 1 := rfl

/-! ### `acceptWord` -/

@[simp] theorem acceptWord_session (c : Word) (s : State) : (acceptWord c s).session = s.session := rfl
@[simp] theorem acceptWord_phase (c : Word) (s : State) : (acceptWord c s).phase = s.phase := rfl
@[simp] theorem acceptWord_op (c : Word) (s : State) : (acceptWord c s).op = some (opField c) := rfl
@[simp] theorem acceptWord_areg (c : Word) (s : State) : (acceptWord c s).areg = s.areg := rfl
@[simp] theorem acceptWord_dreg (c : Word) (s : State) : (acceptWord c s).dreg = s.dreg := rfl
@[simp] theorem acceptWord_rx (c : Word) (s : State) : (acceptWord c s).rx = s.rx := rfl
@[simp] theorem acceptWord_idx (c : Word) (s : State) : (acceptWord c s).idx = s.idx := rfl
@[simp] theorem acceptWord_st (c : Word) (s : State) : (acceptWord c s).st = s.st := rfl
@[simp] theorem acceptWord_val (c : Word) (s : State) : (acceptWord c s).val = s.val := rfl
@[simp] theorem acceptWord_ncs (c : Word) (s : State) : (acceptWord c s).ncs = s.ncs := rfl
@[simp] theorem acceptWord_nreset (c : Word) (s : State) : (acceptWord c s).nreset = s.nreset := rfl
@[simp] theorem acceptWord_dirNreset (c : Word) (s : State) : (acceptWord c s).dirNreset = s.dirNreset := rfl
@[simp] theorem acceptWord_dirNcs (c : Word) (s : State) : (acceptWord c s).dirNcs = s.dirNcs := rfl
@[simp] theorem acceptWord_dirMosi (c : Word) (s : State) : (acceptWord c s).dirMosi = s.dirMosi := rfl
@[simp] theorem acceptWord_dirMiso (c : Word) (s : State) : (acceptWord c s).dirMiso = s.dirMiso := rfl
@[simp] theorem acceptWord_clkmode (c : Word) (s : State) : (acceptWord c s).clkmode = s.clkmode := rfl
@[simp] theorem acceptWord_cfg (c : Word) (s : State) : (acceptWord c s).cfg = s.cfg := rfl
@[simp] theorem acceptWord_commands (c : Word) (s : State) : (acceptWord c s).commands = s.commands := rfl
@[simp] theorem acceptWord_xferIn (c : Word) (s : State) : (acceptWord c s).xferIn = s.xferIn := rfl
@[simp] theorem acceptWord_buf (c : Word) (s : State) : (acceptWord c s).buf = s.buf := rfl
@[simp] theorem acceptWord_trace (c : Word) (s : State) : (acceptWord c s).trace = .acc c :: s.trace := rfl
@[simp] theorem acceptWord_eventNo (c : Word) (s : State) : (acceptWord c s).eventNo = s.eventNo + 1 := rfl

/-! ### `raise` -/

@[simp] theorem raise_session (e : CmdError) (c : Word) (s : State) : (raise e c s).session = s.session := rfl
@[simp] theorem raise_phase (e : CmdError) (c : Word) (s : State) : (raise e c s).phase = .done := rfl
@[simp] theorem raise_op (e : CmdError) (c : Word) (s : State) : (raise e c s).op = s.op := rfl
@[simp] theorem raise_areg (e : CmdError) (c : Word) (s : State) : (raise e c s).areg = s.areg := rfl
@[simp] theorem raise_dreg (e : CmdError) (c : Word) (s : State) : (raise e c s).dreg = s.dreg := rfl
@[simp] theorem raise_rx (e : CmdError) (c : Word) (s : State) : (raise e c s).rx = s.rx := rfl
@[simp] theorem raise_idx (e : CmdError) (c : Word) (s : State) : (raise e c s).idx = s.idx := rfl
@[simp] theorem raise_st (e : CmdError) (c : Word) (s : State) : (raise e c s).st = some e.status := rfl
@[simp] theorem raise_val (e : CmdError) (c : Word) (s : State) : (raise e c s).val = some c := rfl
@[simp] theorem raise_ncs (e : CmdError) (c : Word) (s : State) : (raise e c s).ncs = s.ncs := rfl
@[simp] theorem raise_nreset (e : CmdError) (c : Word) (s : State) : (raise e c s).nreset = s.nreset := rfl
@[simp] theorem raise_dirNreset (e : CmdError) (c : Word) (s : State) : (raise e c s).dirNreset = s.dirNreset := rfl
@[simp] theorem raise_dirNcs (e : CmdError) (c : Word) (s : State) : (raise e c s).dirNcs = s.dirNcs := rfl
@[simp] theorem raise_dirMosi (e : CmdError) (c : Word) (s : State) : (raise e c s).dirMosi = s.dirMosi := rfl
@[simp] theorem raise_dirMiso (e : CmdError) (c : Word) (s : State) : (raise e c s).dirMiso = s.dirMiso := rfl
@[simp] theorem raise_clkmode (e : CmdError) (c : Word) (s : State) : (raise e c s).clkmode = s.clkmode := rfl
@[simp] theorem raise_cfg (e : CmdError) (c : Word) (s : State) : (raise e c s).cfg = s.cfg := rfl
@[simp] theorem raise_commands (e : CmdError) (c : Word) (s : State) : (raise e c s).commands = s.commands := rfl
@[simp] theorem raise_xferIn (e : CmdError) (c : Word) (s : State) : (raise e c s).xferIn = s.xferIn := rfl
@[simp] theorem raise_buf (e : CmdError) (c : Word) (s : State) : (raise e c s).buf = s.buf := rfl
@[simp] theorem raise_trace (e : CmdError) (c : Word) (s : State) : (raise e c s).trace = s.trace := rfl
@[simp] theorem raise_eventNo (e : CmdError) (c : Word) (s : State) : (raise e c s).eventNo = s.eventNo := rfl

/-! ### `finish` -/

@[simp] theorem finish_session (w : Word) (s : State) : (finish w s).session = s.session := rfl
@[simp] theorem finish_phase (w : Word) (s : State) : (finish w s).phase = .done := rfl
@[simp] theorem finish_op (w : Word) (s : State) : (finish w s).op = s.op := rfl
@[simp] theorem finish_areg (w : Word) (s : State) : (finish w s).areg = s.areg := rfl
@[simp] theorem finish_dreg (w : Word) (s : State) : (finish w s).dreg = s.dreg := rfl
@[simp] theorem finish_rx (w : Word) (s : State) : (finish w s).rx = s.rx := rfl
@[simp] theorem finish_idx (w : Word) (s : State) : (finish w s).idx = s.idx := rfl
@[simp] theorem finish_st (w : Word) (s : State) : (finish w s).st = some .ok := rfl
@[simp] theorem finish_val (w : Word) (s : State) : (finish w s).val = some w := rfl
@[simp] theorem finish_ncs (w : Word) (s : State) : (finish w s).ncs = s.ncs := rfl
@[simp] theorem finish_nreset (w : Word) (s : State) : (finish w s).nreset = s.nreset := rfl
@[simp] theorem finish_dirNreset (w : Word) (s : State) : (finish w s).dirNreset = s.dirNreset := rfl
@[simp] theorem finish_dirNcs (w : Word) (s : State) : (finish w s).dirNcs = s.dirNcs := rfl
@[simp] theorem finish_dirMosi (w : Word) (s : State) : (finish w s).dirMosi = s.dirMosi := rfl
@[simp] theorem finish_dirMiso (w : Word) (s : State) : (finish w s).dirMiso = s.dirMiso := rfl
@[simp] theorem finish_clkmode (w : Word) (s : State) : (finish w s).clkmode = s.clkmode := rfl
@[simp] theorem finish_cfg (w : Word) (s : State) : (finish w s).cfg = s.cfg := rfl
@[simp] theorem finish_commands (w : Word) (s : State) : (finish w s).commands = s.commands := rfl
@[simp] theorem finish_xferIn (w : Word) (s : State) : (finish w s).xferIn = s.xferIn := rfl
@[simp] theorem finish_buf (w : Word) (s : State) : (finish w s).buf = s.buf := rfl
@[simp] theorem finish_trace (w : Word) (s : State) : (finish w s).trace = s.trace := rfl
@[simp] theorem finish_eventNo (w : Word) (s : State) : (finish w s).eventNo = s.eventNo := rfl

/-! ### `respond` -/

@[simp] theorem respond_session (s : State) : (respond s).session = s.session := rfl
@[simp] theorem respond_phase (s : State) : (respond s).phase = .idle := rfl
@[simp] theorem respond_op (s : State) : (respond s).op = s.op := rfl
@[simp] theorem respond_areg (s : State) : (respond s).areg = s.areg := rfl
@[simp] theorem respond_dreg (s : State) : (respond s).dreg = s.dreg := rfl
@[simp] theorem respond_rx (s : State) : (respond s).rx = s.rx := rfl
@[simp] theorem respond_idx (s : State) : (respond s).idx = s.idx := rfl
@[simp] theorem respond_st (s : State) : (respond s).st = s.st := rfl
@[simp] theorem respond_val (s : State) : (respond s).val = s.val := rfl
@[simp] theorem respond_ncs (s : State) : (respond s).ncs = s.ncs := rfl
@[simp] theorem respond_nreset (s : State) : (respond s).nreset = s.nreset := rfl
@[simp] theorem respond_dirNreset (s : State) : (respond s).dirNreset = s.dirNreset := rfl
@[simp] theorem respond_dirNcs (s : State) : (respond s).dirNcs = s.dirNcs := rfl
@[simp] theorem respond_dirMosi (s : State) : (respond s).dirMosi = s.dirMosi := rfl
@[simp] theorem respond_dirMiso (s : State) : (respond s).dirMiso = s.dirMiso := rfl
@[simp] theorem respond_clkmode (s : State) : (respond s).clkmode = s.clkmode := rfl
@[simp] theorem respond_cfg (s : State) : (respond s).cfg = s.cfg := rfl
@[simp] theorem respond_commands (s : State) : (respond s).commands = s.commands := rfl
@[simp] theorem respond_xferIn (s : State) : (respond s).xferIn = s.xferIn := rfl
@[simp] theorem respond_buf (s : State) : (respond s).buf = s.buf := rfl
@[simp] theorem respond_trace (s : State) : (respond s).trace = .rsp (readSt s) (readVal s) :: s.trace := rfl
@[simp] theorem respond_eventNo (s : State) : (respond s).eventNo = s.eventNo + 1 := rfl

/-! ### `storeSlot` -/

@[simp] theorem storeSlot_session (i v : Byte) (s : State) : (storeSlot i v s).session = s.session := rfl
@[simp] theorem storeSlot_phase (i v : Byte) (s : State) : (storeSlot i v s).phase = s.phase := rfl
@[simp] theorem storeSlot_op (i v : Byte) (s : State) : (storeSlot i v s).op = s.op := rfl
@[simp] theorem storeSlot_areg (i v : Byte) (s : State) : (storeSlot i v s).areg = s.areg := rfl
@[simp] theorem storeSlot_dreg (i v : Byte) (s : State) : (storeSlot i v s).dreg = s.dreg := rfl
@[simp] theorem storeSlot_rx (i v : Byte) (s : State) : (storeSlot i v s).rx = s.rx := rfl
@[simp] theorem storeSlot_idx (i v : Byte) (s : State) : (storeSlot i v s).idx = s.idx := rfl
@[simp] theorem storeSlot_st (i v : Byte) (s : State) : (storeSlot i v s).st = s.st := rfl
@[simp] theorem storeSlot_val (i v : Byte) (s : State) : (storeSlot i v s).val = s.val := rfl
@[simp] theorem storeSlot_ncs (i v : Byte) (s : State) : (storeSlot i v s).ncs = s.ncs := rfl
@[simp] theorem storeSlot_nreset (i v : Byte) (s : State) : (storeSlot i v s).nreset = s.nreset := rfl
@[simp] theorem storeSlot_dirNreset (i v : Byte) (s : State) : (storeSlot i v s).dirNreset = s.dirNreset := rfl
@[simp] theorem storeSlot_dirNcs (i v : Byte) (s : State) : (storeSlot i v s).dirNcs = s.dirNcs := rfl
@[simp] theorem storeSlot_dirMosi (i v : Byte) (s : State) : (storeSlot i v s).dirMosi = s.dirMosi := rfl
@[simp] theorem storeSlot_dirMiso (i v : Byte) (s : State) : (storeSlot i v s).dirMiso = s.dirMiso := rfl
@[simp] theorem storeSlot_clkmode (i v : Byte) (s : State) : (storeSlot i v s).clkmode = s.clkmode := rfl
@[simp] theorem storeSlot_cfg (i v : Byte) (s : State) : (storeSlot i v s).cfg = s.cfg := rfl
@[simp] theorem storeSlot_commands (i v : Byte) (s : State) : (storeSlot i v s).commands = s.commands := rfl
@[simp] theorem storeSlot_xferIn (i v : Byte) (s : State) : (storeSlot i v s).xferIn = s.xferIn := rfl
@[simp] theorem storeSlot_buf (i v : Byte) (s : State) : (storeSlot i v s).buf = Memory.write s.buf i.toNat v := rfl
@[simp] theorem storeSlot_trace (i v : Byte) (s : State) : (storeSlot i v s).trace = .buf i v :: s.trace := rfl
@[simp] theorem storeSlot_eventNo (i v : Byte) (s : State) : (storeSlot i v s).eventNo = s.eventNo + 1 := rfl

/-! ### `setDir` -/

@[simp] theorem setDir_session (p : Pin) (d : Direction) (s : State) :
    (setDir p d s).session = s.session := by
  cases p <;> rfl
@[simp] theorem setDir_phase (p : Pin) (d : Direction) (s : State) :
    (setDir p d s).phase = s.phase := by
  cases p <;> rfl
@[simp] theorem setDir_op (p : Pin) (d : Direction) (s : State) :
    (setDir p d s).op = s.op := by
  cases p <;> rfl
@[simp] theorem setDir_areg (p : Pin) (d : Direction) (s : State) :
    (setDir p d s).areg = s.areg := by
  cases p <;> rfl
@[simp] theorem setDir_dreg (p : Pin) (d : Direction) (s : State) :
    (setDir p d s).dreg = s.dreg := by
  cases p <;> rfl
@[simp] theorem setDir_rx (p : Pin) (d : Direction) (s : State) :
    (setDir p d s).rx = s.rx := by
  cases p <;> rfl
@[simp] theorem setDir_idx (p : Pin) (d : Direction) (s : State) :
    (setDir p d s).idx = s.idx := by
  cases p <;> rfl
@[simp] theorem setDir_st (p : Pin) (d : Direction) (s : State) :
    (setDir p d s).st = s.st := by
  cases p <;> rfl
@[simp] theorem setDir_val (p : Pin) (d : Direction) (s : State) :
    (setDir p d s).val = s.val := by
  cases p <;> rfl
@[simp] theorem setDir_ncs (p : Pin) (d : Direction) (s : State) :
    (setDir p d s).ncs = s.ncs := by
  cases p <;> rfl
@[simp] theorem setDir_nreset (p : Pin) (d : Direction) (s : State) :
    (setDir p d s).nreset = s.nreset := by
  cases p <;> rfl
@[simp] theorem setDir_dirNreset (p : Pin) (d : Direction) (s : State) :
    (setDir p d s).dirNreset = if p = .nreset then some d else s.dirNreset := by
  cases p <;> rfl
@[simp] theorem setDir_dirNcs (p : Pin) (d : Direction) (s : State) :
    (setDir p d s).dirNcs = if p = .ncs then some d else s.dirNcs := by
  cases p <;> rfl
@[simp] theorem setDir_dirMosi (p : Pin) (d : Direction) (s : State) :
    (setDir p d s).dirMosi = if p = .mosi then some d else s.dirMosi := by
  cases p <;> rfl
@[simp] theorem setDir_dirMiso (p : Pin) (d : Direction) (s : State) :
    (setDir p d s).dirMiso = if p = .miso then some d else s.dirMiso := by
  cases p <;> rfl
@[simp] theorem setDir_clkmode (p : Pin) (d : Direction) (s : State) :
    (setDir p d s).clkmode = s.clkmode := by
  cases p <;> rfl
@[simp] theorem setDir_cfg (p : Pin) (d : Direction) (s : State) :
    (setDir p d s).cfg = s.cfg := by
  cases p <;> rfl
@[simp] theorem setDir_commands (p : Pin) (d : Direction) (s : State) :
    (setDir p d s).commands = s.commands := by
  cases p <;> rfl
@[simp] theorem setDir_xferIn (p : Pin) (d : Direction) (s : State) :
    (setDir p d s).xferIn = s.xferIn := by
  cases p <;> rfl
@[simp] theorem setDir_buf (p : Pin) (d : Direction) (s : State) :
    (setDir p d s).buf = s.buf := by
  cases p <;> rfl
@[simp] theorem setDir_trace (p : Pin) (d : Direction) (s : State) :
    (setDir p d s).trace = .dir p d :: s.trace := by
  cases p <;> rfl
@[simp] theorem setDir_eventNo (p : Pin) (d : Direction) (s : State) :
    (setDir p d s).eventNo = s.eventNo + 1 := by
  cases p <;> rfl

end Sys2Proof.Machine
end

