-- ==== Sys2Proof/Laws/Step.lean ====
section
/-! SUPPORT. What each shared operation and each step can do, said once: the accept step, the step in each phase, and
the cases of a step. Proofs cite these and do not unfold `step`, `exec` or a meaning. -/

namespace Sys2Proof.Machine

variable {s t : State}

/-! ### Runs -/

@[simp] theorem run_zero (s : State) : run 0 s = .next s := rfl

theorem run_succ (k : Nat) (h : step s = .next t) : run (k + 1) s = run k t := by
  simp only [run, h]

theorem run_add {k m : Nat} {s t : State} (h : run k s = .next t) : run (k + m) s = run m t := by
  induction k generalizing s with
  | zero => simp only [run_zero, Host.Outcome.next.injEq] at h; simp [h]
  | succ k ih =>
    rw [Nat.succ_add]
    simp only [run] at h ⊢
    cases hs : step s with
    | next u => simp only [hs] at h ⊢; exact ih h
    | fault f => rw [hs] at h; cases h
    | refused r => rw [hs] at h; cases h

/-- `run` is the host's run of the core. -/
theorem run_eq_core_run (k : Nat) (s : State) : run k s = Host.Core.run Sys2Proof.core k s := by
  induction k generalizing s with
  | zero => rfl
  | succ k ih =>
    have hcore : Sys2Proof.core.step s = step s := rfl
    simp only [run, Host.Core.run, hcore]
    cases step s with
    | next u => exact ih u
    | fault f => rfl
    | refused r => rfl

/-! ### The accept step -/

/-- All the accept step of a command can do: raise the error the checks find, or take the command's action. -/
theorem acceptCommand_cases (i : Instr) (act : State → State) (s : State) :
    (∃ e, firstError i s.session = some e ∧
        acceptCommand i act s = raise e (encode i) (acceptWord (encode i) s)) ∨
      (firstError i s.session = none ∧ acceptCommand i act s = act (acceptWord (encode i) s)) := by
  unfold acceptCommand
  cases h : firstError i s.session with
  | none => exact .inr ⟨rfl, rfl⟩
  | some e => exact .inl ⟨e, rfl, rfl⟩

theorem acceptCommand_of_error {i : Instr} {e : CmdError} (h : firstError i s.session = some e)
    (act : State → State) : acceptCommand i act s = raise e (encode i) (acceptWord (encode i) s) := by
  simp [acceptCommand, h]

theorem acceptCommand_of_none {i : Instr} (h : firstError i s.session = none) (act : State → State) :
    acceptCommand i act s = act (acceptWord (encode i) s) := by
  simp [acceptCommand, h]

/-- The action a command takes when its checks pass: the latches, the session and the first phase (R26). -/
def acceptAction (i : Instr) (t : State) : State :=
  match i with
  | .construct _ => { t with session := .inReset, phase := .con1 }
  | .reset _ => { t with session := .inReset, phase := .rst1 }
  | .wrreg _ sel d => { t with areg := sel.addr t.cfg, dreg := some d, phase := .wr1 }
  | .rdreg _ sel _ => { t with areg := sel.addr t.cfg, phase := .rd1 }
  | .motion _ => { t with areg := some t.cfg.addrMotion, phase := .rd1 }
  | .deltax _ => { t with areg := some t.cfg.addrDeltaX, phase := .rd1 }
  | .deltay _ => { t with areg := some t.cfg.addrDeltaY, phase := .rd1 }
  | .squal _ => { t with areg := some t.cfg.addrSqual, phase := .rd1 }
  | .resmode _ => { t with areg := some t.cfg.addrMode, phase := .rd1 }
  | .pixframe _ => { t with areg := some t.cfg.addrPixel, dreg := some Config.rewind, phase := .wr1 }
  | .isatt _ => t

/-- Every meaning is the shared accept step with the command's own action. -/
theorem exec_eq (i : Instr) (s : State) : exec i s = .next (acceptCommand i (acceptAction i) s) := by
  cases i <;> rfl

/-- A command is accepted in every state: no meaning faults or refuses. -/
theorem exec_answers (i : Instr) (s : State) : ∃ t, exec i s = .next t :=
  ⟨_, exec_eq i s⟩

/-- Once the checks have passed, the command in progress is none that always refuses. -/
theorem firstError_isatt (u : BitVec 12) (ses : Session) : firstError (.isatt u) ses = some .unsupported := rfl

theorem needReady_eq_none {ses : Session} : needReady ses = none ↔ ses = .ready := by
  cases ses <;> simp [needReady]

/-- The checks pass exactly for CONSTRUCT in the session Uninitialized, and for the other commands but ISATT in the
session Ready, with a named register where one is selected (R163). -/
theorem firstError_eq_none {i : Instr} {ses : Session} :
    firstError i ses = none ↔
      match i with
      | .construct _ => ses = .uninitialized
      | .wrreg _ sel _ | .rdreg _ sel _ => sel.isReserved = false ∧ ses = .ready
      | .reset _ | .motion _ | .deltax _ | .deltay _ | .squal _ | .resmode _ | .pixframe _ => ses = .ready
      | .isatt _ => False := by
  cases i with
  | construct u => cases ses <;> simp [firstError]
  | wrreg z sel d => cases h : sel.isReserved <;> simp [firstError, h, needReady_eq_none]
  | rdreg z sel u => cases h : sel.isReserved <;> simp [firstError, h, needReady_eq_none]
  | isatt u => simp [firstError]
  | reset u => exact needReady_eq_none
  | motion u => exact needReady_eq_none
  | deltax u => exact needReady_eq_none
  | deltay u => exact needReady_eq_none
  | squal u => exact needReady_eq_none
  | resmode u => exact needReady_eq_none
  | pixframe u => exact needReady_eq_none

/-! ### The step in each phase -/

theorem step_idle (h : s.phase = .idle) : step s = stepIdle s := by simp only [step, h]
theorem step_con1 (h : s.phase = .con1) : step s = .next (stepCon1 s) := by simp only [step, h]
theorem step_con2 (h : s.phase = .con2) : step s = .next (stepCon2 s) := by simp only [step, h]
theorem step_con3 (h : s.phase = .con3) : step s = .next (stepCon3 s) := by simp only [step, h]
theorem step_con4 (h : s.phase = .con4) : step s = .next (stepCon4 s) := by simp only [step, h]
theorem step_con5 (h : s.phase = .con5) : step s = .next (stepCon5 s) := by simp only [step, h]
theorem step_con6 (h : s.phase = .con6) : step s = .next (stepCon6 s) := by simp only [step, h]
theorem step_con7 (h : s.phase = .con7) : step s = .next (stepCon7 s) := by simp only [step, h]
theorem step_con8 (h : s.phase = .con8) : step s = .next (stepCon8 s) := by simp only [step, h]
theorem step_con9 (h : s.phase = .con9) : step s = .next (stepCon9 s) := by simp only [step, h]
theorem step_rst1 (h : s.phase = .rst1) : step s = .next (stepRst1 s) := by simp only [step, h]
theorem step_rst2 (h : s.phase = .rst2) : step s = .next (stepRst2 s) := by simp only [step, h]
theorem step_rst3 (h : s.phase = .rst3) : step s = .next (stepRst3 s) := by simp only [step, h]
theorem step_rst4 (h : s.phase = .rst4) : step s = .next (stepRst4 s) := by simp only [step, h]
theorem step_wr1 (h : s.phase = .wr1) : step s = .next (stepWr1 s) := by simp only [step, h]
theorem step_wr2 (h : s.phase = .wr2) : step s = .next (stepWr2 s) := by simp only [step, h]
theorem step_wr3 (h : s.phase = .wr3) : step s = .next (stepWr3 s) := by simp only [step, h]
theorem step_wr4 (h : s.phase = .wr4) : step s = .next (stepWr4 s) := by simp only [step, h]
theorem step_rd1 (h : s.phase = .rd1) : step s = .next (stepRd1 s) := by simp only [step, h]
theorem step_rd2 (h : s.phase = .rd2) : step s = .next (stepRd2 s) := by simp only [step, h]
theorem step_rd3 (h : s.phase = .rd3) : step s = .next (stepRd3 s) := by simp only [step, h]
theorem step_rd4 (h : s.phase = .rd4) : step s = .next (stepRd4 s) := by simp only [step, h]
theorem step_rd5 (h : s.phase = .rd5) : step s = .next (stepRd5 s) := by simp only [step, h]
theorem step_rd6 (h : s.phase = .rd6) : step s = .next (stepRd6 s) := by simp only [step, h]
theorem step_pfs (h : s.phase = .pfs) : step s = stepPfs s := by simp only [step, h]
theorem step_done (h : s.phase = .done) : step s = .next (respond s) := by simp only [step, h]

/-- All the step in phase IDLE can do when it answers a next state: accept a command, or refuse a reserved opcode. -/
theorem stepIdle_cases (h : stepIdle s = .next t) :
    ∃ c rest, s.commands = c :: rest ∧
      ((∃ i, decode c = .ok i ∧ t = acceptCommand i (acceptAction i) { s with commands := rest }) ∨
        (∃ e, decode c = .error e ∧ t = acceptReserved c { s with commands := rest })) := by
  unfold stepIdle fetch at h
  cases hc : s.commands with
  | nil => simp [hc] at h
  | cons c rest =>
    simp only [hc] at h
    refine ⟨c, rest, rfl, ?_⟩
    cases hd : decode c with
    | ok i =>
      simp only [hd, exec_eq, Host.Outcome.next.injEq] at h
      exact .inl ⟨i, rfl, h.symm⟩
    | error e =>
      simp only [hd, Host.Outcome.next.injEq] at h
      exact .inr ⟨e, rfl, h.symm⟩

/-- All the pixel store can do when it answers a next state: store and go on, or store the last slot and finish. -/
theorem stepPfs_cases (h : stepPfs s = .next t) :
    ((readIdx s).toNat + 1 < Config.frameLen ∧
        t = { storeSlot (readIdx s) (readRx s) s with idx := some (readIdx s + 1#8), phase := .rd1 }) ∨
      ((readIdx s).toNat + 1 = Config.frameLen ∧
        t = finish 0#16 { storeSlot (readIdx s) (readRx s) s with idx := some (readIdx s + 1#8) }) := by
  simp only [stepPfs] at h
  split at h
  · exact .inl ⟨‹_›, (Host.Outcome.next.inj h).symm⟩
  · split at h
    · exact .inr ⟨‹_›, (Host.Outcome.next.inj h).symm⟩
    · cases h

/-- A word that decodes to a command has that command's opcode. -/
theorem opField_of_decode {c : Word} {i : Instr} (h : decode c = .ok i) : opField c = i.opcode := by
  unfold decode at h
  split at h <;> cases h
  all_goals
    apply BitVec.eq_of_toNat_eq
    simpa [Instr.opcode] using ‹(opField c).toNat = _›

/-- Every case of a step that answers a next state. To show that a relation holds between the state before and the state
after every step, show it in these cases. -/
theorem step_rec {P : State → State → Prop}
    (reserved : ∀ (s : State) (c : Word) (rest : List Word) (e : DecodeError),
      s.phase = .idle → s.commands = c :: rest → decode c = .error e →
      P s (acceptReserved c { s with commands := rest }))
    (refused : ∀ (s : State) (c : Word) (rest : List Word) (i : Instr) (e : CmdError),
      s.phase = .idle → s.commands = c :: rest → decode c = .ok i →
      firstError i s.session = some e →
      P s (raise e (encode i) (acceptWord (encode i) { s with commands := rest })))
    (accepted : ∀ (s : State) (c : Word) (rest : List Word) (i : Instr),
      s.phase = .idle → s.commands = c :: rest → decode c = .ok i →
      firstError i s.session = none →
      P s (acceptAction i (acceptWord (encode i) { s with commands := rest })))
    (con1 : ∀ s : State, s.phase = .con1 → P s (stepCon1 s))
    (con2 : ∀ s : State, s.phase = .con2 → P s (stepCon2 s))
    (con3 : ∀ s : State, s.phase = .con3 → P s (stepCon3 s))
    (con4 : ∀ s : State, s.phase = .con4 → P s (stepCon4 s))
    (con5 : ∀ s : State, s.phase = .con5 → P s (stepCon5 s))
    (con6 : ∀ s : State, s.phase = .con6 → P s (stepCon6 s))
    (con7 : ∀ s : State, s.phase = .con7 → P s (stepCon7 s))
    (con8 : ∀ s : State, s.phase = .con8 → P s (stepCon8 s))
    (con9 : ∀ s : State, s.phase = .con9 → P s (stepCon9 s))
    (rst1 : ∀ s : State, s.phase = .rst1 → P s (stepRst1 s))
    (rst2 : ∀ s : State, s.phase = .rst2 → P s (stepRst2 s))
    (rst3 : ∀ s : State, s.phase = .rst3 → P s (stepRst3 s))
    (rst4 : ∀ s : State, s.phase = .rst4 → P s (stepRst4 s))
    (wr1 : ∀ s : State, s.phase = .wr1 → P s (stepWr1 s))
    (wr2 : ∀ s : State, s.phase = .wr2 → P s (stepWr2 s))
    (wr3 : ∀ s : State, s.phase = .wr3 → P s (stepWr3 s))
    (rd1 : ∀ s : State, s.phase = .rd1 → P s (stepRd1 s))
    (rd2 : ∀ s : State, s.phase = .rd2 → P s (stepRd2 s))
    (rd3 : ∀ s : State, s.phase = .rd3 → P s (stepRd3 s))
    (rd4 : ∀ s : State, s.phase = .rd4 → P s (stepRd4 s))
    (rd5 : ∀ s : State, s.phase = .rd5 → P s (stepRd5 s))
    (wr4_frame : ∀ s : State, s.phase = .wr4 → s.op = some opPixframe →
      P s { driveNcs .high s with idx := some 0#8, phase := .rd1 })
    (wr4 : ∀ s : State, s.phase = .wr4 → s.op ≠ some opPixframe → P s (finish 0#16 (driveNcs .high s)))
    (rd6_frame : ∀ s : State, s.phase = .rd6 → s.op = some opPixframe →
      P s { driveNcs .high s with phase := .pfs })
    (rd6 : ∀ s : State, s.phase = .rd6 → s.op ≠ some opPixframe → P s (finish (readResult s) (driveNcs .high s)))
    (pfs : ∀ s : State, s.phase = .pfs → (readIdx s).toNat + 1 < Config.frameLen →
      P s { storeSlot (readIdx s) (readRx s) s with idx := some (readIdx s + 1#8), phase := .rd1 })
    (pfs_last : ∀ s : State, s.phase = .pfs → (readIdx s).toNat + 1 = Config.frameLen →
      P s (finish 0#16 { storeSlot (readIdx s) (readRx s) s with idx := some (readIdx s + 1#8) }))
    (done : ∀ s : State, s.phase = .done → P s (respond s))
    (h : step s = .next t) : P s t := by
  cases hp : s.phase
  case idle =>
    rw [step_idle hp] at h
    obtain ⟨c, rest, hc, ⟨i, hd, rfl⟩ | ⟨e, hd, rfl⟩⟩ := stepIdle_cases h
    · obtain ⟨e, he, heq⟩ | ⟨hn, heq⟩ := acceptCommand_cases i (acceptAction i) { s with commands := rest }
      · rw [heq]; exact refused s c rest i e hp hc hd he
      · rw [heq]; exact accepted s c rest i hp hc hd hn
    · exact reserved s c rest e hp hc hd
  case con1 => rw [step_con1 hp] at h; cases h; exact con1 s hp
  case con2 => rw [step_con2 hp] at h; cases h; exact con2 s hp
  case con3 => rw [step_con3 hp] at h; cases h; exact con3 s hp
  case con4 => rw [step_con4 hp] at h; cases h; exact con4 s hp
  case con5 => rw [step_con5 hp] at h; cases h; exact con5 s hp
  case con6 => rw [step_con6 hp] at h; cases h; exact con6 s hp
  case con7 => rw [step_con7 hp] at h; cases h; exact con7 s hp
  case con8 => rw [step_con8 hp] at h; cases h; exact con8 s hp
  case con9 => rw [step_con9 hp] at h; cases h; exact con9 s hp
  case rst1 => rw [step_rst1 hp] at h; cases h; exact rst1 s hp
  case rst2 => rw [step_rst2 hp] at h; cases h; exact rst2 s hp
  case rst3 => rw [step_rst3 hp] at h; cases h; exact rst3 s hp
  case rst4 => rw [step_rst4 hp] at h; cases h; exact rst4 s hp
  case wr1 => rw [step_wr1 hp] at h; cases h; exact wr1 s hp
  case wr2 => rw [step_wr2 hp] at h; cases h; exact wr2 s hp
  case wr3 => rw [step_wr3 hp] at h; cases h; exact wr3 s hp
  case rd1 => rw [step_rd1 hp] at h; cases h; exact rd1 s hp
  case rd2 => rw [step_rd2 hp] at h; cases h; exact rd2 s hp
  case rd3 => rw [step_rd3 hp] at h; cases h; exact rd3 s hp
  case rd4 => rw [step_rd4 hp] at h; cases h; exact rd4 s hp
  case rd5 => rw [step_rd5 hp] at h; cases h; exact rd5 s hp
  case wr4 =>
    rw [step_wr4 hp] at h; cases h
    unfold stepWr4
    split
    · exact wr4_frame s hp ‹_›
    · exact wr4 s hp ‹_›
  case rd6 =>
    rw [step_rd6 hp] at h; cases h
    unfold stepRd6
    split
    · exact rd6_frame s hp ‹_›
    · exact rd6 s hp ‹_›
  case pfs =>
    rw [step_pfs hp] at h
    obtain ⟨hlt, rfl⟩ | ⟨heq, rfl⟩ := stepPfs_cases h
    · exact pfs s hp hlt
    · exact pfs_last s hp heq
  case done => rw [step_done hp] at h; cases h; exact done s hp

/-! ### The rounds of a frame -/

/-- The six steps of the read of a round answer, and come to the store of the same slot (R143). -/
theorem run_round_read {i : Byte} (hp : s.phase = .rd1) (ho : s.op = some opPixframe) (hi : s.idx = some i) :
    ∃ t, run 6 s = .next t ∧ t.phase = .pfs ∧ t.op = some opPixframe ∧ readIdx t = i := by
  simp [run, step, stepRd1, stepRd2, stepRd3, stepRd4, stepRd5, stepRd6, setDir, readIdx, hp, ho, hi]

/-- One round of a PIXFRAME, seven steps from RD1, that does not store to the last slot: it answers, and the next round
begins at the next slot (R143, R144). -/
theorem run_round {i : Byte} (hp : s.phase = .rd1) (ho : s.op = some opPixframe) (hi : s.idx = some i)
    (hl : i.toNat + 1 < Config.frameLen) :
    ∃ t, run 7 s = .next t ∧ t.phase = .rd1 ∧ t.op = some opPixframe ∧ t.idx = some (i + 1#8) := by
  obtain ⟨u, hu, hpu, hou, hr⟩ := run_round_read hp ho hi
  have hs : step u = .next { storeSlot i (readRx u) u with idx := some (i + 1#8), phase := .rd1 } := by
    simp only [step_pfs hpu, stepPfs, hr, hl, if_true]
  exact ⟨_, (run_add hu).trans (run_succ 0 hs), rfl, by simpa using hou, rfl⟩

/-- The round that stores to the last slot answers and comes to DONE (R144). -/
theorem run_last_round {i : Byte} (hp : s.phase = .rd1) (ho : s.op = some opPixframe) (hi : s.idx = some i)
    (hl : i.toNat + 1 = Config.frameLen) : ∃ t, run 7 s = .next t ∧ t.phase = .done := by
  obtain ⟨u, hu, hpu, -, hr⟩ := run_round_read hp ho hi
  have hs : step u = .next (finish 0#16 { storeSlot i (readRx u) u with idx := some (i + 1#8) }) := by
    simp only [step_pfs hpu, stepPfs, hr, hl, if_true, lt_irrefl, if_false]
  exact ⟨_, (run_add hu).trans (run_succ 0 hs), rfl⟩

/-- `k` rounds from slot 0, before the last. -/
theorem run_rounds (hp : s.phase = .rd1) (ho : s.op = some opPixframe) (hi : s.idx = some 0#8) :
    ∀ k, k < Config.frameLen → ∃ t, run (7 * k) s = .next t ∧ t.phase = .rd1 ∧ t.op = some opPixframe ∧
      t.idx = some (BitVec.ofNat 8 k)
  | 0, _ => ⟨s, rfl, hp, ho, hi⟩
  | k + 1, hk => by
    obtain ⟨u, hu, hpu, hou, hiu⟩ := run_rounds hp ho hi k (by omega)
    have hk' : (BitVec.ofNat 8 k).toNat + 1 < Config.frameLen := by
      simp only [Config.frameLen] at hk ⊢
      simp [Nat.mod_eq_of_lt (show k < 256 by omega)]
      omega
    obtain ⟨t, ht, hpt, hot, hit⟩ := run_round hpu hou hiu hk'
    exact ⟨t, by rw [Nat.mul_succ, run_add hu, ht], hpt, hot, by rw [hit, ← BitVec.ofNat_add]⟩

/-- All the rounds of a frame answer and come to DONE (R140). -/
theorem run_all_rounds (hp : s.phase = .rd1) (ho : s.op = some opPixframe) (hi : s.idx = some 0#8) :
    ∃ t, run (7 * Config.frameLen) s = .next t ∧ t.phase = .done := by
  obtain ⟨u, hu, hpu, hou, hiu⟩ := run_rounds hp ho hi 224 (by decide)
  obtain ⟨t, ht, hpt⟩ := run_last_round hpu hou hiu (by decide)
  exact ⟨t, by rw [show 7 * Config.frameLen = 7 * 224 + 7 from rfl, run_add hu, ht], hpt⟩

/-! ### What is reached -/

theorem Reachable.run {k : Nat} (hs : Reachable s) (h : Machine.run k s = .next t) : Reachable t := by
  induction k generalizing s with
  | zero => simp only [run_zero, Host.Outcome.next.injEq] at h; exact h ▸ hs
  | succ k ih =>
    simp only [Machine.run] at h
    cases hu : Machine.step s with
    | next u => rw [hu] at h; exact ih (hs.step hu) h
    | fault f => rw [hu] at h; cases h
    | refused r => rw [hu] at h; cases h

/-- What holds at power-on and is kept by every step holds in every reachable state. -/
theorem Reachable.induct {P : State → Prop} (start : ∀ s, PowerOn s → P s)
    (keep : ∀ s t, P s → Machine.step s = .next t → P t) (hs : Reachable s) : P s := by
  induction hs with
  | powerOn h => exact start _ h
  | step _ h ih => exact keep _ _ ih h

end Sys2Proof.Machine
end

