-- ==== Sys2Proof/Tests/Slice0.lean ====
section
/-! SUPPORT. Tests and witnesses. The expected values come from the tables of 30_encoding.md and the vectors of
95_test_vectors.md, none from the model; the addresses are those of that file's example binding EX. A witness `wit_X`
shows that the hypotheses of the statement `X` can be met together. -/

namespace Sys2Proof.Tests

open Sys2Proof.Machine

/-! ### The checks of WellFormed refuse ill-formed commands -/

theorem test_wellFormed_accepts : (Instr.wrreg 0 .mode 0x01#8).wellFormed = true := by decide
theorem test_wellFormed_refuses_z : (Instr.wrreg 1 .mode 0x01#8).wellFormed = false := by decide
theorem test_wellFormed_refuses_unused_data : (Instr.rdreg 0 .squal 0xFF#8).wellFormed = false := by decide
theorem test_wellFormed_refuses_unused_bits : (Instr.motion 0xFFF#12).wellFormed = false := by decide
theorem test_wellFormed_refuses_selector_6 : (Instr.rdreg 0 .reserved6 0#8).wellFormed = false := by decide
theorem test_wellFormed_refuses_selector_7 : (Instr.wrreg 0 .reserved7 0xAA#8).wellFormed = false := by decide

/-! ### Decoding: the words of the table in 95_test_vectors.md, section 2, bit by bit -/

theorem test_decode_construct : decode 0b0001000000000000#16 = .ok (.construct 0) := rfl
theorem test_decode_reset : decode 0b0010000000000000#16 = .ok (.reset 0) := rfl
theorem test_decode_wrreg : decode 0b0011010100000001#16 = .ok (.wrreg 0 .mode 0x01#8) := rfl
theorem test_decode_wrreg_z : decode 0b0011110100000001#16 = .ok (.wrreg 1 .mode 0x01#8) := rfl
theorem test_decode_wrreg_reserved : decode 0b0011011110101010#16 = .ok (.wrreg 0 .reserved7 0xAA#8) := rfl
theorem test_decode_rdreg : decode 0b0100001100000000#16 = .ok (.rdreg 0 .squal 0x00#8) := rfl
theorem test_decode_rdreg_reserved : decode 0b0100011000000000#16 = .ok (.rdreg 0 .reserved6 0x00#8) := rfl
theorem test_decode_motion : decode 0b0101111111111111#16 = .ok (.motion 0xFFF#12) := rfl
theorem test_decode_deltax : decode 0b0110000000000000#16 = .ok (.deltax 0) := rfl
theorem test_decode_deltay : decode 0b0111000000000000#16 = .ok (.deltay 0) := rfl
theorem test_decode_squal : decode 0b1000000000000000#16 = .ok (.squal 0) := rfl
theorem test_decode_resmode : decode 0b1001000000000000#16 = .ok (.resmode 0) := rfl
theorem test_decode_pixframe : decode 0b1010000000000000#16 = .ok (.pixframe 0) := rfl
theorem test_decode_isatt : decode 0b1011000000000000#16 = .ok (.isatt 0) := rfl
theorem test_decode_reserved_0 : decode 0b0000000000000000#16 = .error (.reservedOpcode 0x0#4) := rfl
theorem test_decode_reserved_F : decode 0b1111000100100011#16 = .error (.reservedOpcode 0xF#4) := rfl
theorem test_encode_wrreg : encode (.wrreg 0 .pixel 0x00#8) = 0x3400#16 := by decide
theorem test_encode_rdreg : encode (.rdreg 0 .deltaX 0x00#8) = 0x4100#16 := by decide
theorem test_decodeTableWord : decodeTableWord 16 0x30FF = some (.wrreg 0 .motion 0xFF#8) := by decide
theorem test_decodeTableWord_rejects : decodeTableWord 16 0xC000 = none := by decide
theorem test_asm_wrreg : (Instr.wrreg 0 .deltaX 0x80#8).toAsm = some "WRREG DELTA_X, 128" := by decide
theorem test_asm_reserved : (Instr.rdreg 0 .reserved6 0#8).toAsm = none := by decide

/-! ### Small states -/

/-- The binding EX of 95_test_vectors.md; the pins are symbolic there. -/
def ex : Config where
  addrMotion := 0x02#8
  addrDeltaX := 0x03#8
  addrDeltaY := 0x04#8
  addrSqual  := 0x05#8
  addrPixel  := 0x0B#8
  addrMode   := 0x0D#8
  pinNreset  := 0
  pinNcs     := 1
  pinMosi    := 2
  pinMiso    := 3
  pinSck     := 4
  tStartupMs := 1000
  tSettleMs  := 750

/-- Power-on with the binding EX, a host program and a list of bytes that the sensor will return. -/
def s0 (cs : List Word) (xs : List Byte) : State :=
  { State.reset with cfg := ex, commands := cs, xferIn := xs }

/-- An operation in progress: phase, opcode, and every latch with a value. -/
def busyAt (p : Phase) (op : BitVec 4) (v i : Byte) : State :=
  { s0 [] [0x3C#8, 0x3D#8] with
    session := .ready, phase := p, op := some op, areg := some 0x05#8, dreg := some 0x01#8, rx := some v
    idx := some i, st := some .ok, val := some 0x003C#16 }

/-- Ready and idle, with the next commands of the host. -/
def readyWith (cs : List Word) : State := { s0 cs [0xFF#8, 0x3C#8] with session := .ready }

/-- The next state, where there is one. -/
def next? : Host.Outcome State Fault Refusal → Option State
  | .next t => some t
  | .fault _ => none
  | .refused _ => none

/-- The state after some steps from power-on. -/
def after (k : Nat) (cs : List Word) (xs : List Byte) : State := (next? (run k (s0 cs xs))).getD (s0 cs xs)

theorem powerOn_s0 (cs : List Word) (xs : List Byte) : PowerOn (s0 cs xs) := by
  constructor <;> rfl

theorem run_after {k : Nat} {cs : List Word} {xs : List Byte} (h : (next? (run k (s0 cs xs))).isSome = true) :
    run k (s0 cs xs) = .next (after k cs xs) := by
  unfold after
  cases hr : run k (s0 cs xs) with
  | next t => rfl
  | fault f => rw [hr] at h; cases h
  | refused r => rw [hr] at h; cases h

theorem reachable_after {k : Nat} {cs : List Word} {xs : List Byte} (h : (next? (run k (s0 cs xs))).isSome = true) :
    Reachable (after k cs xs) :=
  (Reachable.powerOn (powerOn_s0 cs xs)).run (run_after h)

/-! ### One step of each command (95_test_vectors.md, sections 3 to 7) -/

theorem test_construct_accept :
    (next? (exec (.construct 0) (s0 [] []))).map (fun t => (t.session, t.phase, t.op, t.trace)) =
      some (.inReset, .con1, some 0x1#4, [.acc 0x1000#16]) := by decide
theorem test_construct_twice :
    (next? (exec (.construct 0) (readyWith []))).map (fun t => (t.session, t.phase, t.st, t.val)) =
      some (.ready, .done, some .errConstructed, some 0x1000#16) := by decide
theorem test_reset_accept :
    (next? (exec (.reset 0) (readyWith []))).map (fun t => (t.session, t.phase)) = some (.inReset, .rst1) := by decide
theorem test_reset_before_construct :
    (next? (exec (.reset 0) (s0 [] []))).map (fun t => (t.session, t.phase, t.st, t.val)) =
      some (.uninitialized, .done, some .errNotReady, some 0x2000#16) := by decide
theorem test_wrreg_accept :
    (next? (exec (.wrreg 0 .mode 0x01#8) (readyWith []))).map (fun t => (t.areg, t.dreg, t.phase)) =
      some (some 0x0D#8, some 0x01#8, .wr1) := by decide
theorem test_wrreg_reserved_before_construct :
    (next? (exec (.wrreg 0 .reserved7 0xAA#8) (s0 [] []))).map (fun t => (t.st, t.val, t.areg)) =
      some (some .errIllegalReg, some 0x37AA#16, none) := by decide
theorem test_rdreg_accept :
    (next? (exec (.rdreg 0 .squal 0xFF#8) (readyWith []))).map (fun t => (t.areg, t.dreg, t.phase)) =
      some (some 0x05#8, none, .rd1) := by decide
theorem test_rdreg_zero_extends :
    (next? (step (busyAt .rd6 0x4#4 0xFF#8 0#8))).map (fun t => (t.val, t.ncs, t.phase)) =
      some (some 0x00FF#16, some .high, .done) := by decide
theorem test_motion_below_threshold :
    (next? (step (busyAt .rd6 0x5#4 0x7F#8 0#8))).map (fun t => t.val) = some (some 0x0000#16) := by decide
theorem test_motion_at_threshold :
    (next? (step (busyAt .rd6 0x5#4 0x80#8 0#8))).map (fun t => t.val) = some (some 0x0001#16) := by decide
theorem test_deltax_negative :
    (next? (step (busyAt .rd6 0x6#4 0xFB#8 0#8))).map (fun t => t.val) = some (some 0xFFFB#16) := by decide
theorem test_deltax_address :
    (next? (exec (.deltax 0) (readyWith []))).map (fun t => (t.areg, t.phase)) = some (some 0x03#8, .rd1) := by decide
theorem test_deltay_most_negative :
    (next? (step (busyAt .rd6 0x7#4 0x80#8 0#8))).map (fun t => t.val) = some (some 0xFF80#16) := by decide
theorem test_deltay_address :
    (next? (exec (.deltay 0) (readyWith []))).map (fun t => (t.areg, t.phase)) = some (some 0x04#8, .rd1) := by decide
theorem test_squal_above_range :
    (next? (step (busyAt .rd6 0x8#4 0x91#8 0#8))).map (fun t => t.val) = some (some 0x0091#16) := by decide
theorem test_squal_address :
    (next? (exec (.squal 0) (readyWith []))).map (fun t => (t.areg, t.phase)) = some (some 0x05#8, .rd1) := by decide
theorem test_resmode_zero :
    (next? (step (busyAt .rd6 0x9#4 0x00#8 0#8))).map (fun t => t.val) = some (some 0x01F4#16) := by decide
theorem test_resmode_nonzero :
    (next? (step (busyAt .rd6 0x9#4 0x80#8 0#8))).map (fun t => t.val) = some (some 0x03E8#16) := by decide
theorem test_pixframe_accept :
    (next? (exec (.pixframe 0) (readyWith []))).map (fun t => (t.areg, t.dreg, t.phase)) =
      some (some 0x0B#8, some 0x00#8, .wr1) := by decide
theorem test_pixframe_last_store :
    (next? (step (busyAt .pfs 0xA#4 0xE0#8 224#8))).map (fun t => (t.idx, t.phase, t.st, t.val, readSlot t 224)) =
      some (some 225#8, .done, some .ok, some 0x0000#16, some 0xE0#8) := by decide
theorem test_isatt_unsupported :
    (next? (exec (.isatt 0x123#12) (s0 [] []))).map (fun t => (t.st, t.val, t.phase)) =
      some (some .errUnsupported, some 0xB123#16, .done) := by decide
theorem test_reserved_opcode :
    (next? (step (s0 [0xF123#16] []))).map (fun t => (t.st, t.val, t.phase, t.commands)) =
      some (some .errIllegalOp, some 0xF123#16, .done, []) := by decide

/-! ### Steps of the operations, the buffer, and the interface -/

theorem test_con6 :
    (next? (step { s0 [] [] with phase := .con6 })).map (fun t => (t.ncs, t.trace, t.phase)) =
      some (some .high, [.lvl .ncs .high], .con7) := by decide
theorem test_con8_sleeps :
    (next? (step { s0 [] [] with phase := .con8 })).map (fun t => t.trace) = some [.sleep 1000] := by decide
theorem test_rst4_ready :
    (next? (step (busyAt .rst4 0x2#4 0#8 0#8))).map (fun t => (t.session, t.trace, t.phase)) =
      some (.ready, [.sleep 750], .done) := by decide
theorem test_rd4_keeps_the_byte :
    (next? (step (busyAt .rd4 0x4#4 0#8 0#8))).map (fun t => (t.rx, t.trace, t.xferIn)) =
      some (some 0x3C#8, [.xfer 0x00#8 0x3C#8], [0x3D#8]) := by decide
theorem test_wr2_drops_the_byte :
    (next? (step (busyAt .wr2 0x3#4 0x77#8 0#8))).map (fun t => (t.rx, t.trace)) =
      some (some 0x77#8, [.xfer 0x05#8 0x3C#8]) := by decide
theorem test_wr4_of_pixframe :
    (next? (step (busyAt .wr4 0xA#4 0#8 9#8))).map (fun t => (t.idx, t.phase)) = some (some 0#8, .rd1) := by decide
theorem test_done_responds :
    (next? (step (busyAt .done 0x4#4 0#8 0#8))).map (fun t => (t.trace, t.phase)) =
      some ([.rsp .ok 0x003C#16], .idle) := by decide
theorem test_quiescent : step (s0 [] []) = .fault .quiescent := rfl
theorem test_no_slot_225 : step (busyAt .pfs 0xA#4 0#8 225#8) = .fault (.noSuchSlot 225#8) := rfl
theorem test_write_keeps_order :
    Memory.write [(2, 0x11#8), (7, 0x22#8)] 4 0x33#8 = [(2, 0x11#8), (4, 0x33#8), (7, 0x22#8)] := by decide
theorem test_write_replaces : Memory.write [(2, 0x11#8)] 2 0x22#8 = [(2, 0x22#8)] := by decide
theorem test_wf_refuses_unsorted : Memory.wf [(7, 0x22#8), (2, 0x11#8)] = false := by decide
theorem test_response_word : responseWord .errConstructed 0x1000#16 = 0x51000#19 := by decide
theorem test_withFetchWord_construct :
    (next? (step (State.reset.withFetchWord 16 0x1000))).map (fun t => (t.session, t.phase)) =
      some (.inReset, .con1) := rfl
theorem test_withFetchWord_motion :
    (next? (step (State.reset.withFetchWord 16 0x5000))).map (fun t => (t.st, t.val, t.phase)) =
      some (some .errNotReady, some 0x5000#16, .done) := rfl

/-! ### Witnesses -/

/-- Ready and idle after a CONSTRUCT, with the next commands and bytes. -/
def s1 (cs : List Word) (xs : List Byte) : State := after 15 (0x1000#16 :: cs) xs

theorem reachable_s1 (cs : List Word) (xs : List Byte) : Reachable (s1 cs xs) := reachable_after rfl

/-- The state before step RD4 of a RDREG. -/
def atRd4 : State := after 19 [0x1000#16, 0x4300#16] [0xFF#8, 0x3C#8]

theorem reachable_atRd4 : Reachable atRd4 := reachable_after (by decide)

theorem inv_atRd4 : Inv atRd4 where
  pins := by constructor <;> decide
  session := ⟨by decide, by decide⟩
  latch := by
    constructor
    case opRead => exact fun _ => ⟨0x4#4, by decide, by decide, by decide⟩
    case idx => exact fun h => absurd h (by decide)
    all_goals decide
  buf := by decide

theorem steps (k : Nat) (cs : List Word) (xs : List Byte)
    (h : (next? (step (after k cs xs))).isSome = true) : ∃ t, step (after k cs xs) = .next t := by
  cases hs : step (after k cs xs) with
  | next t => exact ⟨t, rfl⟩
  | fault f => rw [hs] at h; cases h
  | refused r => rw [hs] at h; cases h

theorem wit_PowerOnMeetsTheInvariants : PowerOn (s0 [0x1000#16] [0xFF#8]) := powerOn_s0 _ _

theorem wit_StepKeepsTheStateInvariant : Inv atRd4 ∧ ∃ t, step atRd4 = .next t :=
  ⟨inv_atRd4, steps _ _ _ (by decide)⟩

theorem wit_StepKeepsTheBracketGrammar : Inv atRd4 ∧ BusInv atRd4 ∧ ∃ t, step atRd4 = .next t :=
  ⟨inv_atRd4, ⟨.turned 0x05#8, by decide, by decide, by decide⟩, steps _ _ _ (by decide)⟩

theorem wit_StepKeepsAccAndRspAlternating : PortInv atRd4 ∧ ∃ t, step atRd4 = .next t :=
  ⟨by unfold PortInv; decide, steps _ _ _ (by decide)⟩

theorem untouched_s0 : UntouchedInv (s0 [0x1000#16] []) :=
  ⟨⟨fun _ _ h => absurd h (List.not_mem_nil), fun _ => rfl⟩, fun _ _ h => absurd h (List.not_mem_nil)⟩

theorem inv_s0 : Inv (s0 [0x1000#16] []) where
  pins := by constructor <;> decide
  session := ⟨by decide, by decide⟩
  latch := by
    constructor
    case opRead => exact fun h => absurd h (by decide)
    case idx => exact fun h => absurd h (by decide)
    all_goals decide
  buf := by decide

theorem wit_StepKeepsUntouchedUntilConstruct :
    Inv (s0 [0x1000#16] []) ∧ UntouchedInv (s0 [0x1000#16] []) ∧ ∃ t, step (s0 [0x1000#16] []) = .next t :=
  ⟨inv_s0, untouched_s0, _, rfl⟩

theorem wit_ReachableStatesMeetTheInvariants : Reachable atRd4 := reachable_atRd4

/-- Items 1 to 4 (an `Xfer` is about to be made while the data pin is Input), 5, 6 and 8 (the reset pin Low), 7, and 9. -/
theorem wit_ReachableStatesMeetTheNineItems :
    (∃ s t, Reachable s ∧ s.dirMosi = some .input ∧ step s = .next t ∧
      t.trace = .xfer 0x00#8 0x3C#8 :: s.trace) ∧
    (∃ s, Reachable s ∧ s.session = .uninitialized) ∧
    (∃ s, Reachable s ∧ s.session = .inReset ∧ s.nreset = some .low) ∧
    (∃ s, Reachable s ∧ s.session = .ready ∧ s.phase = .idle) ∧
    (∃ s, Reachable s ∧ s.op = some 0xA#4 ∧ s.phase = .rd1) ∧
    (∃ s, Reachable s ∧ s.op = some 0xA#4 ∧ s.phase = .pfs) :=
  ⟨⟨atRd4, after 20 [0x1000#16, 0x4300#16] [0xFF#8, 0x3C#8], reachable_atRd4, by decide, rfl, rfl⟩,
    ⟨_, .powerOn (powerOn_s0 [] []), rfl⟩,
    ⟨after 6 [0x1000#16] [], reachable_after (by decide), by decide, by decide⟩,
    ⟨s1 [] [], reachable_s1 _ _, by decide, by decide⟩,
    ⟨after 20 [0x1000#16, 0xA000#16] [0#8, 0#8], reachable_after (by decide), by decide, by decide⟩,
    ⟨after 26 [0x1000#16, 0xA000#16] [0#8, 0#8, 0#8, 0#8], reachable_after (by decide), by decide, by decide⟩⟩

theorem wit_StepFollowsThePhaseGraph : ∃ t, step (s1 [0xA000#16] []) = .next t := steps _ _ _ (by decide)

/-- A step with an `Acc`, one with an `Xfer`, one with a `Buf`. -/
theorem wit_EveryStepMakesOneEventAndUsesWhatItSays :
    (∃ t, step (s1 [0xA000#16] []) = .next t) ∧ (∃ t, step atRd4 = .next t) ∧
      ∃ t, step (busyAt .pfs 0xA#4 0x7F#8 223#8) = .next t :=
  ⟨steps _ _ _ (by decide), steps _ _ _ (by decide), _, rfl⟩

/-- A store to the first slot, one to the last, and a step that stores nothing. -/
theorem wit_StepStoresOnlyToTheSlotOfItsEvent :
    (∃ t, step (busyAt .pfs 0xA#4 0x7F#8 0#8) = .next t ∧ t.trace = [.buf 0#8 0x7F#8]) ∧
    (∃ t, step (busyAt .pfs 0xA#4 0x7F#8 224#8) = .next t ∧ t.trace = [.buf 224#8 0x7F#8]) ∧
    (∃ t, step (busyAt .done 0xA#4 0x7F#8 225#8) = .next t ∧ ∀ i v, t.trace ≠ [.buf i v]) :=
  ⟨⟨_, rfl, rfl⟩, ⟨_, rfl, rfl⟩, ⟨_, rfl, fun _ _ h => by injection h with h; cases h⟩⟩

theorem wit_StepRunsTheDecodedCommand :
    (s1 [0x3501#16] []).phase = .idle ∧ (s1 [0x3501#16] []).commands = [0x3501#16] ∧
      decode 0x3501#16 = .ok (.wrreg 0 .mode 0x01#8) :=
  ⟨by decide, by decide, rfl⟩

theorem wit_BusyStepsIgnoreTheCommandPort : atRd4.phase ≠ .idle ∧ ∃ t, step atRd4 = .next t :=
  ⟨by decide, steps _ _ _ (by decide)⟩

theorem wit_BusyStepsNeverStop : Inv atRd4 ∧ atRd4.phase ≠ .idle := ⟨inv_atRd4, by decide⟩

/-- Ready and idle after a CONSTRUCT, whatever comes next. -/
theorem inv_s1 (cs : List Word) (xs : List Byte) : Inv (s1 cs xs) := by
  have hp : (s1 cs xs).phase = .idle := rfl
  have hs : (s1 cs xs).session = .ready := rfl
  refine ⟨by constructor <;> rfl, ⟨by simp [hp, hs, Phase.inConstruct, Phase.inPulse], fun _ => hs⟩, ?_, rfl⟩
  constructor <;>
    simp [hp, Phase.inConstruct, Phase.inPulse, Phase.inWrite, Phase.inRead]

/-- The host presents a PIXFRAME, and every byte of the sensor is 0. -/
def frameOfZeros : State := s1 [0xA000#16] (List.replicate 1581 0x00#8)

/-- `frameOfZeros` has a state after 1580 steps, and one after 1581. -/
theorem run_frameOfZeros : ∃ u t, run 1580 frameOfZeros = .next u ∧ run 1581 frameOfZeros = .next t := by
  have h5 : ∃ v, run 5 frameOfZeros = .next v ∧ v.phase = .rd1 ∧ v.op = some opPixframe ∧ v.idx = some 0#8 :=
    ⟨_, rfl, rfl, rfl, rfl⟩
  obtain ⟨v, hv, hp, ho, hi⟩ := h5
  obtain ⟨u, hu, hd⟩ := run_all_rounds hp ho hi
  have h : run (5 + 7 * Config.frameLen) frameOfZeros = .next u := (run_add hv).trans hu
  have h' : run (5 + 7 * Config.frameLen + 1) frameOfZeros = .next (respond u) :=
    (run_add h).trans (run_succ 0 (step_done hd))
  exact ⟨u, respond u, h, h'⟩

/-- A busy state for the first clause. For the second, a word presented in phase IDLE and a busy state one step before the
end, for each number of steps: 2 (ISATT, refused), 15 (CONSTRUCT), 6 (RESET, WRREG), 8 (RDREG), 1581 (PIXFRAME). -/
theorem wit_EveryOperationEndsInItsNumberOfSteps :
    Inv atRd4 ∧
    (Inv (s1 [0xB000#16] []) ∧ operationSteps 0xB000#16 .ready = 2 ∧ ∃ u, run 1 (s1 [0xB000#16] []) = .next u) ∧
    (Inv (s0 [0x1000#16] []) ∧ operationSteps 0x1000#16 .uninitialized = 15 ∧
      ∃ u, run 14 (s0 [0x1000#16] []) = .next u) ∧
    (Inv (s1 [0x2000#16] []) ∧ operationSteps 0x2000#16 .ready = 6 ∧ ∃ u, run 5 (s1 [0x2000#16] []) = .next u) ∧
    (Inv (s1 [0x3501#16] []) ∧ operationSteps 0x3501#16 .ready = 6 ∧ ∃ u, run 5 (s1 [0x3501#16] []) = .next u) ∧
    (Inv (s1 [0x4300#16] []) ∧ operationSteps 0x4300#16 .ready = 8 ∧ ∃ u, run 7 (s1 [0x4300#16] []) = .next u) ∧
    (Inv frameOfZeros ∧ operationSteps 0xA000#16 .ready = 1581 ∧ ∃ u, run 1580 frameOfZeros = .next u) ∧
    (∀ cs xs, (s1 cs xs).phase = .idle ∧ (s1 cs xs).session = .ready ∧ (s1 cs xs).commands = cs) ∧
    (s0 [0x1000#16] []).phase = .idle ∧ (s0 [0x1000#16] []).commands = [0x1000#16] := by
  obtain ⟨u, _, hu, _⟩ := run_frameOfZeros
  exact ⟨inv_atRd4, ⟨inv_s1 _ _, by decide, _, rfl⟩, ⟨inv_s0, by decide, _, rfl⟩, ⟨inv_s1 _ _, by decide, _, rfl⟩,
    ⟨inv_s1 _ _, by decide, _, rfl⟩, ⟨inv_s1 _ _, by decide, _, rfl⟩, ⟨inv_s1 _ _, by decide, u, hu⟩,
    fun _ _ => ⟨rfl, rfl, rfl⟩, rfl, rfl⟩

theorem wit_DoneRespondsAndReturns :
    (busyAt .done 0x4#4 0#8 0#8).phase = .done ∧ (busyAt .done 0x4#4 0#8 0#8).st = some .ok ∧
      (busyAt .done 0x4#4 0#8 0#8).val = some 0x003C#16 :=
  ⟨rfl, rfl, rfl⟩

/-- Each of the five refusals, by the vectors of 95_test_vectors.md. -/
theorem wit_RefusedWordsTakeTheRefusal :
    ((s0 [0xF123#16] []).phase = .idle ∧ (s0 [0xF123#16] []).commands = [0xF123#16]) ∧
      firstErrorOfWord 0xF123#16 .uninitialized = some .illegalOp ∧
      firstErrorOfWord 0x0000#16 .ready = some .illegalOp ∧
      firstErrorOfWord 0x37AA#16 .uninitialized = some .illegalReg ∧
      firstErrorOfWord 0x4600#16 .ready = some .illegalReg ∧
      firstErrorOfWord 0xB000#16 .uninitialized = some .unsupported ∧
      firstErrorOfWord 0x1000#16 .ready = some .constructed ∧
      firstErrorOfWord 0x2000#16 .uninitialized = some .notReady ∧
      firstErrorOfWord 0xA000#16 .uninitialized = some .notReady :=
  ⟨⟨rfl, rfl⟩, by decide, by decide, by decide, by decide, by decide, by decide, by decide, by decide⟩

theorem wit_ExecOfARefusedCommandTakesTheRefusal :
    firstErrorOfWord (encode (.wrreg 0 .reserved6 0#8)) (s0 [] []).session = some .illegalReg ∧
      firstErrorOfWord (encode (.isatt 0)) (s0 [] []).session = some .unsupported ∧
      firstErrorOfWord (encode (.construct 0)) (readyWith []).session = some .constructed ∧
      firstErrorOfWord (encode (.reset 0)) (s0 [] []).session = some .notReady := by decide

theorem wit_AcceptedWordsStartTheirOperation :
    (readyWith [0x3501#16]).phase = .idle ∧ (readyWith [0x3501#16]).commands = [0x3501#16] ∧
      firstErrorOfWord 0x3501#16 (readyWith [0x3501#16]).session = none ∧
      firstErrorOfWord 0x1000#16 .uninitialized = none ∧ firstErrorOfWord 0x2000#16 .ready = none ∧
      firstErrorOfWord 0x45FF#16 .ready = none ∧ firstErrorOfWord 0xAFFF#16 .ready = none :=
  ⟨rfl, rfl, by decide, by decide, by decide, by decide, by decide⟩

theorem wit_UnusedBitsAreIgnored : firstError (.motion 0xFFF#12) (readyWith []).session = none := by decide

theorem wit_EncodeOfDecodeIsTheWord : decode 0x3D01#16 = .ok (.wrreg 1 .mode 0x01#8) := rfl

/-- Each step of the write transaction with its latches, and WR4 reached by both commands that come to it. -/
theorem wit_WriteTransactionStepsAndContinuation :
    (busyAt .wr4 0xA#4 0#8 0#8).areg = some 0x05#8 ∧ (busyAt .wr4 0xA#4 0#8 0#8).dreg = some 0x01#8 ∧
      (busyAt .wr1 0x3#4 0#8 0#8).phase = .wr1 ∧ (busyAt .wr2 0x3#4 0#8 0#8).phase = .wr2 ∧
      (busyAt .wr3 0x3#4 0#8 0#8).phase = .wr3 ∧ (busyAt .wr4 0xA#4 0#8 0#8).op = some 0xA#4 ∧
      (busyAt .wr4 0x3#4 0#8 0#8).op ≠ some 0xA#4 ∧
    (∃ s, Reachable s ∧ s.phase = .wr4 ∧ s.op = some 0x3#4) ∧
    (∃ s, Reachable s ∧ s.phase = .wr4 ∧ s.op = some 0xA#4) :=
  ⟨rfl, rfl, rfl, rfl, rfl, rfl, by decide,
    ⟨after 19 [0x1000#16, 0x3501#16] [0#8, 0#8], reachable_after (by decide), by decide, by decide⟩,
    ⟨after 19 [0x1000#16, 0xA000#16] [0#8, 0#8], reachable_after (by decide), by decide, by decide⟩⟩

/-- Each step of the read transaction with its latches, each result at its boundary bytes, and RD6 reached. -/
theorem wit_ReadTransactionStepsAndContinuation :
    (busyAt .rd1 0x4#4 0xFF#8 0#8).areg = some 0x05#8 ∧ (busyAt .rd6 0xA#4 0#8 0#8).op = some 0xA#4 ∧
      ((busyAt .rd6 0x4#4 0xFF#8 0#8).phase = .rd6 ∧ (busyAt .rd6 0x4#4 0xFF#8 0#8).rx = some 0xFF#8 ∧
        (busyAt .rd6 0x4#4 0xFF#8 0#8).op = some 0x4#4) ∧
      0x00FF#16 = BitVec.ofNat 16 (0xFF#8 : Byte).toNat ∧
      0x0000#16 = (if 128 ≤ (0x7F#8 : Byte).toNat then 1#16 else 0#16) ∧
      0x0001#16 = (if 128 ≤ (0x80#8 : Byte).toNat then 1#16 else 0#16) ∧
      0xFF80#16 = BitVec.ofInt 16 (s8 0x80#8) ∧ 0x007F#16 = BitVec.ofInt 16 (s8 0x7F#8) ∧
      0x01F4#16 = (if (0x00#8 : Byte) = 0x00#8 then 500#16 else 1000#16) ∧
    (∃ s, Reachable s ∧ s.phase = .rd6) ∧ (∃ s, Reachable s ∧ s.phase = .rd1) :=
  ⟨rfl, rfl, ⟨rfl, rfl, rfl⟩, by decide, by decide, by decide, by decide, by decide, by decide,
    ⟨after 21 [0x1000#16, 0x4300#16] [0#8, 0#8], reachable_after (by decide), by decide⟩,
    ⟨after 16 [0x1000#16, 0x4300#16] [0#8, 0#8], reachable_after (by decide), by decide⟩⟩

theorem wit_DataPinListensOnlyForTheFiller :
    Reachable atRd4 ∧ ∃ t, step atRd4 = .next t ∧ t.trace = .xfer 0x00#8 0x3C#8 :: atRd4.trace :=
  ⟨reachable_atRd4, after 20 [0x1000#16, 0x4300#16] [0xFF#8, 0x3C#8], rfl, rfl⟩

theorem wit_SensorBytesDoNotSteer :
    SameButBytes atRd4 { atRd4 with xferIn := [0x80#8], rx := some 0x01#8 } ∧ ∃ t, run 1 atRd4 = .next t :=
  ⟨rfl, _, rfl⟩

theorem wit_BytesReceivedWhileSendingAreDropped :
    (busyAt .wr2 0x3#4 0#8 0#8).phase = .wr2 ∧ ∃ t, step (busyAt .wr2 0x3#4 0#8 0#8) = .next t :=
  ⟨rfl, _, rfl⟩

theorem wit_WrregCompletes :
    (s1 [] []).session = .ready ∧ RegSel.motion.addr (s1 [] []).cfg = some 0x02#8 ∧
      RegSel.mode.addr (s1 [] []).cfg = some 0x0D#8 := by decide

theorem wit_RdregCompletes :
    (s1 [] []).session = .ready ∧ RegSel.motion.addr (s1 [] []).cfg = some 0x02#8 ∧
      RegSel.mode.addr (s1 [] []).cfg = some 0x0D#8 := by decide

theorem wit_EchoHarnessReturnsTheWrittenByte :
    Reachable (s1 [0x3180#16, 0x4100#16] []) ∧ (s1 [0x3180#16, 0x4100#16] []).session = .ready ∧
      (s1 [0x3180#16, 0x4100#16] []).phase = .idle ∧ RegSel.deltaX.isReserved = false ∧
      (s1 [0x3180#16, 0x4100#16] []).commands = [encode (.wrreg 0 .deltaX 0x80#8), encode (.rdreg 0 .deltaX 0#8)] :=
  ⟨reachable_after (by decide), by decide, by decide, by decide, by decide⟩

theorem wit_MotionCompletes : (s1 [] []).session = .ready := by decide
theorem wit_DeltaxCompletes : (s1 [] []).session = .ready := by decide
theorem wit_DeltayCompletes : (s1 [] []).session = .ready := by decide
theorem wit_SqualCompletes : (s1 [] []).session = .ready := by decide
theorem wit_ResmodeCompletes : (s1 [] []).session = .ready := by decide

theorem wit_TypedReadsLookLikeRdregOnTheBus :
    (s1 [] []).session = .ready ∧
      ((∃ x, Instr.resmode 0 = .motion x) ∧ RegSel.mode = .motion ∨
        (∃ x, Instr.resmode 0 = .deltax x) ∧ RegSel.mode = .deltaX ∨
        (∃ x, Instr.resmode 0 = .deltay x) ∧ RegSel.mode = .deltaY ∨
        (∃ x, Instr.resmode 0 = .squal x) ∧ RegSel.mode = .squal ∨
        (∃ x, Instr.resmode 0 = .resmode x) ∧ RegSel.mode = .mode) :=
  ⟨by decide, .inr (.inr (.inr (.inr ⟨⟨0, rfl⟩, rfl⟩)))⟩

/-- Motion before the first read, none after it: the sensor answers 0x80, then 0x00 (16 steps later). -/
theorem wit_SecondMotionIsZeroWithoutNewMotion :
    ∃ (s t : State) (moved : Nat → Bool),
      Reachable s ∧ s.session = .ready ∧ s.phase = .idle ∧ s.commands = [0x5000#16, 0x5FFF#16] ∧
      opField 0x5000#16 = 0x5#4 ∧ opField 0x5FFF#16 = 0x5#4 ∧ run 16 s = .next t ∧
      HMotion s.cfg moved (txns t.trace) ∧ moved ((txns s.trace).length + 1) = false := by
  refine ⟨s1 [0x5000#16, 0x5FFF#16] [0xFF#8, 0x80#8, 0xFF#8, 0x00#8],
    after 31 [0x1000#16, 0x5000#16, 0x5FFF#16] [0xFF#8, 0x80#8, 0xFF#8, 0x00#8], fun n => n == 0,
    reachable_after (by decide), by decide, by decide, by decide, by decide, by decide, rfl, ?_, by decide⟩
  have h : txns (after 31 [0x1000#16, 0x5000#16, 0x5FFF#16] [0xFF#8, 0x80#8, 0xFF#8, 0x00#8]).trace =
      [.read 0x02#8 0x00#8, .read 0x02#8 0x80#8] := by decide
  rw [h]
  exact ⟨⟨trivial, fun _ => by decide⟩, fun _ => by decide⟩

/-- Both axes: the count -5 before a DELTAX, the count -128 before a DELTAY. -/
theorem wit_DeltaReadsAnswerTheCount :
    (∃ s t, Reachable s ∧ s.session = .ready ∧ s.phase = .idle ∧ s.commands = [0x6000#16] ∧
      opField 0x6000#16 = 0x6#4 ∧ run 8 s = .next t ∧
      HDelta s.cfg.addrDeltaX (fun n => if n = 0 then -5 else 0) (txns t.trace) ∧
      deltaCount s.cfg.addrDeltaX (fun n => if n = 0 then -5 else 0) (txns s.trace) = -5) ∧
    (∃ s t, Reachable s ∧ s.session = .ready ∧ s.phase = .idle ∧ s.commands = [0x7000#16] ∧
      opField 0x7000#16 = 0x7#4 ∧ run 8 s = .next t ∧
      HDelta s.cfg.addrDeltaY (fun n => if n = 0 then -128 else 0) (txns t.trace) ∧
      deltaCount s.cfg.addrDeltaY (fun n => if n = 0 then -128 else 0) (txns s.trace) = -128) := by
  refine ⟨⟨s1 [0x6000#16] [0xFF#8, 0xFB#8], after 23 [0x1000#16, 0x6000#16] [0xFF#8, 0xFB#8],
      reachable_after (by decide), by decide, by decide, by decide, by decide, rfl, ?_, by decide⟩,
    ⟨s1 [0x7000#16] [0xFF#8, 0x80#8], after 23 [0x1000#16, 0x7000#16] [0xFF#8, 0x80#8],
      reachable_after (by decide), by decide, by decide, by decide, by decide, rfl, ?_, by decide⟩⟩
  · have h : txns (after 23 [0x1000#16, 0x6000#16] [0xFF#8, 0xFB#8]).trace = [.read 0x03#8 0xFB#8] := by decide
    rw [h]
    exact ⟨trivial, fun _ _ _ => by decide⟩
  · have h : txns (after 23 [0x1000#16, 0x7000#16] [0xFF#8, 0x80#8]).trace = [.read 0x04#8 0x80#8] := by decide
    rw [h]
    exact ⟨trivial, fun _ _ _ => by decide⟩

/-- The top of the range, 144. -/
theorem wit_SqualStaysInRangeUnderTheHypothesis :
    ∃ s t, Reachable s ∧ s.session = .ready ∧ s.phase = .idle ∧ s.commands = [0x8000#16] ∧
      opField 0x8000#16 = 0x8#4 ∧ run 8 s = .next t ∧ HRange s.cfg (txns t.trace) := by
  refine ⟨s1 [0x8000#16] [0xFF#8, 0x90#8], after 23 [0x1000#16, 0x8000#16] [0xFF#8, 0x90#8],
    reachable_after (by decide), by decide, by decide, by decide, by decide, rfl, ?_⟩
  have h : txns (after 23 [0x1000#16, 0x8000#16] [0xFF#8, 0x90#8]).trace = [.read 0x05#8 0x90#8] := by decide
  rw [h]
  intro v hm
  injection List.mem_singleton.mp hm with _ hv
  rw [hv]
  decide

theorem wit_ConstructSequenceSteps :
    ({ s0 [] [] with phase := .con1 } : State).phase = .con1 ∧
      ∀ k, k < 9 → (after (1 + k) [0x1000#16] []).phase.code = BitVec.ofNat 5 (1 + k) := by decide

theorem wit_ResetPulseSteps :
    ∀ k, k < 4 → (after (10 + k) [0x1000#16] []).phase.code = BitVec.ofNat 5 (10 + k) := by decide

theorem wit_ConstructCompletes : (s0 [] []).session = .uninitialized := rfl

theorem wit_ResetCompletes : (s1 [] []).session = .ready := by decide

/-- A step that leaves the session alone, and the three that change it. -/
theorem wit_SessionChangesOnlyAsListed :
    (Inv atRd4 ∧ ∃ t, step atRd4 = .next t) ∧
      (Inv (s0 [0x1000#16] []) ∧ ∃ t, step (s0 [0x1000#16] []) = .next t ∧ t.session = .inReset) :=
  ⟨⟨inv_atRd4, steps _ _ _ (by decide)⟩, inv_s0, _, rfl, rfl⟩

theorem wit_NothingReachesTheBusInReset :
    Reachable (after 3 [0x1000#16] []) ∧ (after 3 [0x1000#16] []).session = .inReset ∧
      ∃ t, step (after 3 [0x1000#16] []) = .next t ∧
        t.trace = .dir .mosi .output :: (after 3 [0x1000#16] []).trace :=
  ⟨reachable_after (by decide), by decide, after 4 [0x1000#16] [], rfl, rfl⟩

theorem wit_NoStepReturnsToTheResetState : ∃ t, step atRd4 = .next t := steps _ _ _ (by decide)

/-- Reachable states of the phases that read a latch; and two states that differ in what was last driven. -/
theorem wit_ElementsAreWrittenBeforeTheyAreRead :
    (∃ s, Reachable s ∧ s.phase = .wr2) ∧ (∃ s, Reachable s ∧ s.phase = .wr3) ∧
      (∃ s, Reachable s ∧ s.phase = .wr4) ∧ (∃ s, Reachable s ∧ s.phase = .rd6) ∧
      (∃ s, Reachable s ∧ s.phase = .pfs) ∧ (∃ s, Reachable s ∧ s.phase = .done) ∧
    SameButPins atRd4 { atRd4 with ncs := none, dirMosi := some .output } ∧ ∃ t, step atRd4 = .next t :=
  ⟨⟨after 17 [0x1000#16, 0x3501#16] [], reachable_after (by decide), by decide⟩,
    ⟨after 18 [0x1000#16, 0x3501#16] [0#8], reachable_after (by decide), by decide⟩,
    ⟨after 19 [0x1000#16, 0x3501#16] [0#8, 0#8], reachable_after (by decide), by decide⟩,
    ⟨after 21 [0x1000#16, 0x4300#16] [0#8, 0#8], reachable_after (by decide), by decide⟩,
    ⟨after 26 [0x1000#16, 0xA000#16] [0#8, 0#8, 0#8, 0#8], reachable_after (by decide), by decide⟩,
    ⟨after 1 [0xB000#16] [], reachable_after (by decide), by decide⟩,
    rfl, steps _ _ _ (by decide)⟩

theorem wit_SleepOnlyAtTheThreeWaits :
    (∃ t, step ({ s0 [] [] with phase := .con8 } : State) = .next t ∧ t.trace = [.sleep 1000]) ∧
      (∃ t, step (busyAt .rst2 0x2#4 0#8 0#8) = .next t ∧ t.trace = [.sleep 750]) ∧
      (∃ t, step (busyAt .rst4 0x2#4 0#8 0#8) = .next t ∧ t.trace = [.sleep 750]) :=
  ⟨⟨_, rfl, rfl⟩, ⟨_, rfl, rfl⟩, ⟨_, rfl, rfl⟩⟩

/-- Slots 0, 223 (the last that is not the last) and 224; and PFS reached. -/
theorem wit_PixelStoreStep :
    (busyAt .pfs 0xA#4 0x7F#8 0#8).phase = .pfs ∧ (busyAt .pfs 0xA#4 0x7F#8 0#8).rx = some 0x7F#8 ∧
      (busyAt .pfs 0xA#4 0x7F#8 0#8).idx = some 0#8 ∧ (0#8 : Byte).toNat + 1 < 225 ∧
      (busyAt .pfs 0xA#4 0x7F#8 223#8).idx = some 223#8 ∧ (223#8 : Byte).toNat + 1 < 225 ∧
      (busyAt .pfs 0xA#4 0x7F#8 224#8).idx = some 224#8 ∧ (224#8 : Byte).toNat + 1 = 225 ∧
    ∃ s, Reachable s ∧ s.phase = .pfs :=
  ⟨rfl, rfl, rfl, by decide, rfl, by decide, rfl, by decide,
    after 26 [0x1000#16, 0xA000#16] [0#8, 0#8, 0#8, 0#8], reachable_after (by decide), by decide⟩

theorem wit_StoreBeyondTheLastSlotStops :
    (busyAt .pfs 0xA#4 0#8 225#8).phase = .pfs ∧ (busyAt .pfs 0xA#4 0#8 225#8).idx = some 225#8 ∧
      225 ≤ (225#8 : Byte).toNat ∧ 225 ≤ (255#8 : Byte).toNat ∧ Reachable (s1 [] []) :=
  ⟨rfl, rfl, by decide, by decide, reachable_s1 _ _⟩

theorem wit_PixframeCompletes : (s1 [] []).session = .ready := by decide

theorem wit_PixframeCounts :
    (s1 [0xA000#16] []).session = .ready ∧ (s1 [0xA000#16] []).phase = .idle ∧
      (s1 [0xA000#16] []).commands = [0xA000#16] ∧ opField 0xA000#16 = 0xA#4 := by decide

/-- A sensor whose every sample is 0 keeps H_PIXEL. -/
theorem hPixel_zero (cfg : Config) (ts : List Txn) (h : ∀ a v, Txn.read a v ∈ ts → v = 0x00#8) :
    HPixel cfg (fun _ _ => 0x00#8) ts := by
  induction ts with
  | nil => trivial
  | cons e older ih =>
    have hi := ih (fun a v hm => h a v (List.mem_cons_of_mem e hm))
    cases e with
    | write a d => exact hi
    | read a v => exact ⟨hi, fun _ _ _ _ => h a v List.mem_cons_self⟩

/-- At least `n` bytes are still to come from the sensor, and every byte, to come or received, is 0. -/
def Zeros (n : Nat) (s : State) : Prop :=
  n ≤ s.xferIn.length ∧ (∀ b ∈ s.xferIn, b = 0x00#8) ∧ ∀ o i, Event.xfer o i ∈ s.trace → i = 0x00#8

/-- A step whose event is no `Xfer` keeps it. -/
theorem zeros_of_other {n : Nat} {s t : State} {e : Event} (hz : Zeros (n + 1) s) (hx : t.xferIn = s.xferIn)
    (ht : t.trace = e :: s.trace) (he : e.isXfer = false) : Zeros n t := by
  refine ⟨hx ▸ Nat.le_of_succ_le hz.1, hx ▸ hz.2.1, fun o i hm => ?_⟩
  rcases List.mem_cons.mp (ht ▸ hm) with rfl | hm
  · cases he
  · exact hz.2.2 o i hm

/-- A step whose event is an `Xfer` uses one byte. -/
theorem zeros_of_exchange {n : Nat} {s t : State} {o : Byte} (hz : Zeros (n + 1) s) (hx : t.xferIn = s.xferIn.tail)
    (ht : t.trace = .xfer o (nextXferByte s) :: s.trace) : Zeros n t := by
  obtain ⟨hl, hb, hs⟩ := hz
  cases hc : s.xferIn with
  | nil => simp [hc] at hl
  | cons b rest =>
    rw [hc] at hl hb hx
    refine ⟨by rw [hx]; exact Nat.le_of_succ_le_succ hl, fun c hm => hb c (List.mem_cons_of_mem b (by rwa [hx] at hm)),
      fun o' i hm => ?_⟩
    rcases List.mem_cons.mp (ht ▸ hm) with heq | hm
    · injection heq with _ hi
      rw [hi, nextXferByte, hc]
      exact hb b List.mem_cons_self
    · exact hs o' i hm

theorem zeros_step {n : Nat} {s t : State} (hz : Zeros (n + 1) s) (h : step s = .next t) : Zeros n t := by
  revert hz
  apply step_rec (P := fun s t => Zeros (n + 1) s → Zeros n t) (h := h)
  case wr2 | wr3 | rd2 | rd4 => exact fun _ _ hz => zeros_of_exchange hz rfl rfl
  case accepted => exact fun _ _ _ i _ _ _ _ hz => by cases i <;> exact zeros_of_other hz rfl rfl rfl
  all_goals
    intros
    rename_i hz
    exact zeros_of_other hz rfl rfl rfl

theorem zeros_run {k n : Nat} {s t : State} (hz : Zeros (n + k) s) (h : run k s = .next t) : Zeros n t := by
  induction k generalizing s with
  | zero => simp only [run_zero, Host.Outcome.next.injEq] at h; exact h ▸ hz
  | succ k ih =>
    cases hs : step s with
    | next u => rw [run_succ k hs] at h; exact ih (zeros_step (by rwa [Nat.add_assoc]) hs) h
    | fault f => simp [run, hs] at h
    | refused r => simp [run, hs] at h

theorem zeros_frameOfZeros : Zeros (0 + 1581) frameOfZeros := by
  have hx : frameOfZeros.xferIn = List.replicate 1581 0x00#8 := rfl
  refine ⟨by rw [hx, List.length_replicate], fun b hm => (List.mem_replicate.mp (hx ▸ hm)).2, fun o i hm => ?_⟩
  have ht : frameOfZeros.trace = (s1 [] []).trace := rfl
  have hall : ∀ e ∈ (s1 [] []).trace, e.isXfer = false := by decide
  exact absurd (hall _ (ht ▸ hm)) (by simp [Event.isXfer])

/-- Where every byte received is 0, so is every byte of a read. -/
theorem txns_of_zeros (tr : List Event) (h : ∀ o i, Event.xfer o i ∈ tr → i = 0x00#8) :
    (∀ a v, busPos tr = some (.valued a v) ∨ busPos tr = some (.restored a v) → v = 0x00#8) ∧
      ∀ a v, Txn.read a v ∈ txns tr → v = 0x00#8 := by
  induction tr with
  | nil => exact ⟨fun a v hb => by simp [busPos] at hb, fun a v hm => by simp [txns] at hm⟩
  | cons e older ih =>
    obtain ⟨hpos, htx⟩ := ih (fun o i hm => h o i (List.mem_cons_of_mem e hm))
    constructor
    · rintro a v (hb | hb)
      all_goals
        rw [busPos_cons] at hb
        obtain ⟨b, hp, hm⟩ := Option.bind_eq_some_iff.mp hb
      · obtain ⟨-, o, ho⟩ := BusPos.move_eq_valued hm
        exact h o v (Event.onBus_eq_exchange ho ▸ List.mem_cons_self)
      · obtain ⟨rfl, -⟩ := BusPos.move_eq_restored hm
        exact hpos a v (.inl hp)
    · intro a v hm
      by_cases hr : e.onBus = .release
      · simp only [txns, hr, if_true, List.mem_append, Option.mem_toList] at hm
        rcases hm with hm | hm
        · obtain ⟨b, hp, ht⟩ := Option.bind_eq_some_iff.mp hm
          exact hpos a v (.inr (BusPos.txn_eq_read ht ▸ hp))
        · exact htx a v hm
      · simp only [txns, hr, if_false] at hm
        exact htx a v hm

/-- The state and the command; and the run's own transactions keep H_PIXEL, for a frame of zeros. -/
theorem wit_PixframeFillsTheBufferWithTheFrame :
    Reachable frameOfZeros ∧ frameOfZeros.session = .ready ∧ frameOfZeros.phase = .idle ∧
      frameOfZeros.commands = [0xA000#16] ∧ opField 0xA000#16 = 0xA#4 ∧
      ∃ t, run 1581 frameOfZeros = .next t ∧ HPixel frameOfZeros.cfg (fun _ _ => 0x00#8) (txns t.trace) := by
  obtain ⟨_, t, _, ht⟩ := run_frameOfZeros
  exact ⟨reachable_s1 _ _, rfl, rfl, rfl, by decide, t, ht,
    hPixel_zero _ _ (txns_of_zeros _ (zeros_run zeros_frameOfZeros ht).2.2).2⟩

theorem wit_PixelHarnessFillsTheBuffer :
    Reachable (s1 [0xA000#16] []) ∧ (s1 [0xA000#16] []).session = .ready ∧ (s1 [0xA000#16] []).phase = .idle ∧
      (s1 [0xA000#16] []).commands = [0xA000#16] ∧ opField 0xA000#16 = 0xA#4 ∧
      (List.replicate 225 (0x7F#8 : Byte)).length = 225 :=
  ⟨reachable_after (by decide), by decide, by decide, by decide, by decide, List.length_replicate⟩

end Sys2Proof.Tests
end

section
/-! PROOFS. What a word decodes to and which check it fails, read off its bits: the two forms of `first_error` (R163)
are one. -/

namespace Sys2Proof.Machine

/-- The operand bits of a decoded command are the word's bits 11:0 (R60, R61). -/
theorem operandBits_of_decode {c : Word} {i : Instr} (h : decode c = .ok i) : i.operandBits = restField c := by
  unfold decode at h
  split at h <;> cases h
  all_goals simp [Instr.operandBits, restField_eq]

theorem encode_of_decode {c : Word} {i : Instr} (h : decode c = .ok i) : encode i = c := by
  rw [encode, ← opField_of_decode h, operandBits_of_decode h, opField_append_restField]

/-- The decoder rejects only the five reserved opcodes (R67). -/
theorem opField_of_decode_error {c : Word} {e : DecodeError} (h : decode c = .error e) :
    opField c = 0x0#4 ∨ opField c = 0xC#4 ∨ opField c = 0xD#4 ∨ opField c = 0xE#4 ∨ opField c = 0xF#4 := by
  unfold decode at h
  split at h <;> cases h
  simp only [imp_false] at *
  generalize opField c = o at *
  revert o
  decide

/-- A word that does not decode fails the first check. -/
theorem firstErrorOfWord_of_decode_error {c : Word} {e : DecodeError} (h : decode c = .error e) (ses : Session) :
    firstErrorOfWord c ses = some .illegalOp := by
  simp [firstErrorOfWord, opField_of_decode_error h]

/-- Of a word that decodes, the checks on its bits are the checks on its command. -/
theorem firstErrorOfWord_of_decode {c : Word} {i : Instr} (h : decode c = .ok i) (ses : Session) :
    firstErrorOfWord c ses = firstError i ses := by
  have hop := opField_of_decode h
  unfold firstErrorOfWord
  rw [hop]
  cases i with
  | wrreg z sel d =>
    have hsel : rselField c = sel.toBits := rselField_of_rest (operandBits_of_decode h).symm
    rw [hsel]
    cases sel <;> cases ses <;> rfl
  | rdreg z sel u =>
    have hsel : rselField c = sel.toBits := rselField_of_rest (operandBits_of_decode h).symm
    rw [hsel]
    cases sel <;> cases ses <;> rfl
  | _ => cases ses <;> rfl

/-- A word that fails no check decodes, and its command fails none. -/
theorem decode_of_firstErrorOfWord_eq_none {c : Word} {ses : Session} (h : firstErrorOfWord c ses = none) :
    ∃ i, decode c = .ok i ∧ firstError i ses = none := by
  cases hd : decode c with
  | ok i => exact ⟨i, rfl, firstErrorOfWord_of_decode hd ses ▸ h⟩
  | error e => rw [firstErrorOfWord_of_decode_error hd] at h; cases h

/-- The action of an accepted command goes to the phase that R29's graph gives its opcode. -/
theorem acceptAction_phase {i : Instr} {ses : Session} (h : firstError i ses = none) (t : State) :
    (acceptAction i t).phase = acceptTarget i.opcode := by
  cases i with
  | isatt u => cases h
  | _ => rfl

/-- The action of an accepted command leaves the opcode, the environment and its record alone. -/
theorem acceptAction_frame (i : Instr) (t : State) :
    (acceptAction i t).op = t.op ∧ (acceptAction i t).cfg = t.cfg ∧ (acceptAction i t).commands = t.commands ∧
      (acceptAction i t).xferIn = t.xferIn ∧ (acceptAction i t).buf = t.buf ∧ (acceptAction i t).trace = t.trace ∧
      (acceptAction i t).eventNo = t.eventNo := by
  cases i <;> exact ⟨rfl, rfl, rfl, rfl, rfl, rfl, rfl⟩

end Sys2Proof.Machine
end

section
/-! PROOFS. What a step does, said once for the state invariants: the arrow it goes along (R29), the outcomes it can
have (R26, R28), and the one event it makes, by the phase (R24). -/

namespace Sys2Proof.Machine

variable {s t : State}

/-! ### The arrow -/

/-- Every accepted command goes along an arrow of IDLE. -/
theorem acceptTarget_mem_graphSucc_idle (op : BitVec 4) : acceptTarget op ∈ graphSucc .idle := by
  revert op
  decide

theorem step_phase_mem_graphSucc (h : step s = .next t) : t.phase ∈ graphSucc s.phase := by
  apply step_rec (P := fun s t => t.phase ∈ graphSucc s.phase) (h := h)
  case accepted =>
    intro s c rest i hp _ _ hn
    rw [acceptAction_phase hn, hp]
    exact acceptTarget_mem_graphSucc_idle _
  case wr4_frame | rd6_frame | pfs_last =>
    intro s hp _
    rw [hp]
    exact List.mem_cons_of_mem _ List.mem_cons_self
  all_goals
    intro s
    intros
    rw [‹s.phase = _›]
    exact List.mem_cons_self

/-- Only DONE has an arrow to IDLE. -/
theorem idle_mem_graphSucc {p : Phase} : Phase.idle ∈ graphSucc p ↔ p = .done := by
  cases p <;> decide

/-- DONE has no other arrow. -/
theorem eq_idle_of_mem_graphSucc_done {p : Phase} (h : p ∈ graphSucc .done) : p = .idle := by
  simpa [graphSucc] using h

/-- A step comes to IDLE exactly from DONE. -/
theorem step_phase_idle_iff (h : step s = .next t) : t.phase = .idle ↔ s.phase = .done := by
  have hg := step_phase_mem_graphSucc h
  constructor
  · intro ht
    exact idle_mem_graphSucc.mp (ht ▸ hg)
  · intro hs
    exact eq_idle_of_mem_graphSucc_done (hs ▸ hg)

/-! ### The outcomes -/

theorem step_of_no_command (hp : s.phase = .idle) (hc : s.commands = []) : step s = .fault .quiescent := by
  simp [step_idle hp, stepIdle, fetch, hc]

theorem step_of_decode {c : Word} {rest : List Word} {i : Instr} (hp : s.phase = .idle) (hc : s.commands = c :: rest)
    (hd : decode c = .ok i) : step s = exec i { s with commands := rest } := by
  simp [step_idle hp, stepIdle, fetch, hc, hd]

theorem step_of_decode_error {c : Word} {rest : List Word} {e : DecodeError} (hp : s.phase = .idle)
    (hc : s.commands = c :: rest) (hd : decode c = .error e) :
    step s = .next (acceptReserved c { s with commands := rest }) := by
  simp [step_idle hp, stepIdle, fetch, hc, hd]

theorem step_of_command {c : Word} {rest : List Word} (hp : s.phase = .idle) (hc : s.commands = c :: rest) :
    ∃ t, step s = .next t := by
  cases hd : decode c with
  | ok i => exact ⟨_, (step_of_decode hp hc hd).trans (exec_eq i _)⟩
  | error e => exact ⟨_, step_of_decode_error hp hc hd⟩

/-- A word that fails no check: the step takes the action of the command it decodes to. -/
theorem step_of_accepted {c : Word} {rest : List Word} {i : Instr} (hp : s.phase = .idle) (hc : s.commands = c :: rest)
    (hd : decode c = .ok i) (hn : firstError i s.session = none) :
    step s = .next (acceptAction i (acceptWord c { s with commands := rest })) := by
  rw [step_of_decode hp hc hd, exec_eq, acceptCommand_of_none (by exact hn), encode_of_decode hd]

/-- A word that decodes and fails a check: the step takes the refusal. -/
theorem step_of_refused {c : Word} {rest : List Word} {i : Instr} {e : CmdError} (hp : s.phase = .idle)
    (hc : s.commands = c :: rest) (hd : decode c = .ok i) (he : firstError i s.session = some e) :
    step s = .next (raise e c (acceptWord c { s with commands := rest })) := by
  rw [step_of_decode hp hc hd, exec_eq, acceptCommand_of_error (by exact he), encode_of_decode hd]

theorem step_wr4_of_frame (hp : s.phase = .wr4) (ho : s.op = some opPixframe) :
    step s = .next { driveNcs .high s with idx := some 0#8, phase := .rd1 } := by
  rw [step_wr4 hp, stepWr4, if_pos ho]

theorem step_wr4_of_ne (hp : s.phase = .wr4) (ho : s.op ≠ some opPixframe) :
    step s = .next (finish 0#16 (driveNcs .high s)) := by
  rw [step_wr4 hp, stepWr4, if_neg ho]

theorem step_rd6_of_frame (hp : s.phase = .rd6) (ho : s.op = some opPixframe) :
    step s = .next { driveNcs .high s with phase := .pfs } := by
  rw [step_rd6 hp, stepRd6, if_pos ho]

theorem step_rd6_of_ne (hp : s.phase = .rd6) (ho : s.op ≠ some opPixframe) :
    step s = .next (finish (readResult s) (driveNcs .high s)) := by
  rw [step_rd6 hp, stepRd6, if_neg ho]

theorem readIdx_of_idx {i : Byte} (h : s.idx = some i) : readIdx s = i := by
  rw [readIdx, h, Option.getD_some]

theorem step_pfs_of_lt (hp : s.phase = .pfs) (hi : (readIdx s).toNat + 1 < Config.frameLen) :
    step s = .next { storeSlot (readIdx s) (readRx s) s with idx := some (readIdx s + 1#8), phase := .rd1 } :=
  (step_pfs hp).trans (if_pos hi)

theorem step_pfs_of_last (hp : s.phase = .pfs) (hi : (readIdx s).toNat + 1 = Config.frameLen) :
    step s = .next (finish 0#16 { storeSlot (readIdx s) (readRx s) s with idx := some (readIdx s + 1#8) }) :=
  (step_pfs hp).trans ((if_neg hi.not_lt).trans (if_pos hi))

theorem step_pfs_of_beyond (hp : s.phase = .pfs) (hi : Config.frameLen ≤ (readIdx s).toNat) :
    step s = .fault (.noSuchSlot (readIdx s)) :=
  (step_pfs hp).trans ((if_neg (by omega)).trans (if_neg (by omega)))

/-- All that a step can do: answer, or stop at an empty command port, or stop at a slot that does not exist. -/
theorem step_outcome (s : State) :
    (∃ t, step s = .next t ∧ (s.phase = .idle → s.commands ≠ [])) ∨
      (step s = .fault .quiescent ∧ s.phase = .idle ∧ s.commands = []) ∨
      (step s = .fault (.noSuchSlot (readIdx s)) ∧ s.phase = .pfs ∧ Config.frameLen ≤ (readIdx s).toNat) := by
  cases hp : s.phase
  case idle =>
    cases hc : s.commands with
    | nil => exact .inr (.inl ⟨step_of_no_command hp hc, rfl, rfl⟩)
    | cons c rest =>
      obtain ⟨t, ht⟩ := step_of_command hp hc
      exact .inl ⟨t, ht, fun _ => List.cons_ne_nil c rest⟩
  case pfs =>
    rcases lt_trichotomy ((readIdx s).toNat + 1) Config.frameLen with hi | hi | hi
    · exact .inl ⟨_, step_pfs_of_lt hp hi, nofun⟩
    · exact .inl ⟨_, step_pfs_of_last hp hi, nofun⟩
    · exact .inr (.inr ⟨step_pfs_of_beyond hp (Nat.le_of_lt_succ hi), rfl, Nat.le_of_lt_succ hi⟩)
  all_goals exact .inl ⟨_, by simp only [step, hp]; rfl, nofun⟩

/-! ### The event -/

/-- From `s` to `t` the one event `e` is made, and the environment is used as `e` says (R24, R26, R28, R51). -/
structure Makes (e : Event) (s t : State) : Prop where
  trace    : t.trace = e :: s.trace
  eventNo  : t.eventNo = s.eventNo + 1
  cfg      : t.cfg = s.cfg
  commands : if e.isAcc then ∃ c, e = .acc c ∧ s.commands = c :: t.commands else t.commands = s.commands
  xferIn   : if e.isXfer then t.xferIn = s.xferIn.tail else t.xferIn = s.xferIn
  buf      : if e.isBuf then ∃ i v, e = .buf i v ∧ t.buf = Memory.write s.buf i.toNat v else t.buf = s.buf

/-- The phases whose step makes an event of this kind: `Acc` in IDLE, `Xfer` in the four steps that send a byte, `Buf`
to one of the 225 slots in PFS, `Rsp` in DONE, and a pin, the clock mode or a wait in none of IDLE, PFS and DONE. -/
def EventFits (p : Phase) : Event → Prop
  | .acc _ => p = .idle
  | .xfer _ _ => p = .wr2 ∨ p = .wr3 ∨ p = .rd2 ∨ p = .rd4
  | .buf i _ => p = .pfs ∧ i.toNat < Config.frameLen
  | .rsp _ _ => p = .done
  | .dir _ _ | .lvl _ _ | .cfg _ | .sleep _ => p ≠ .idle ∧ p ≠ .pfs ∧ p ≠ .done

/-- In IDLE and DONE no collaborator is called. -/
theorem not_isCollaborator_of_eventFits {p : Phase} {e : Event} (he : EventFits p e) (hp : p = .idle ∨ p = .done) :
    e.isCollaborator = false := by
  cases e <;> simp only [EventFits] at he
  case acc | rsp | buf => rfl
  all_goals rcases hp with rfl | rfl <;> simp at he

/-- A refusal, of a reserved opcode or by a check. -/
theorem refused_makes {c : Word} {rest : List Word} (hc : s.commands = c :: rest) (e : CmdError) :
    Makes (.acc c) s (raise e c (acceptWord c { s with commands := rest })) where
  trace := rfl
  eventNo := rfl
  cfg := rfl
  commands := ⟨c, rfl, hc⟩
  xferIn := rfl
  buf := rfl

theorem accepted_makes {c : Word} {rest : List Word} (hc : s.commands = c :: rest) (i : Instr) :
    Makes (.acc c) s (acceptAction i (acceptWord c { s with commands := rest })) := by
  obtain ⟨-, hcfg, hcom, hxf, hbuf, htr, hno⟩ := acceptAction_frame i (acceptWord c { s with commands := rest })
  exact ⟨htr, hno, hcfg, ⟨c, rfl, by rw [hcom]; exact hc⟩, hxf, hbuf⟩

theorem step_makes (h : step s = .next t) : ∃ e, Makes e s t ∧ EventFits s.phase e := by
  apply step_rec (P := fun s t => ∃ e, Makes e s t ∧ EventFits s.phase e) (h := h)
  case reserved => exact fun s c rest e hp hc _ => ⟨.acc c, refused_makes hc .illegalOp, hp⟩
  case refused =>
    intro s c rest i e hp hc hd _
    rw [encode_of_decode hd]
    exact ⟨.acc c, refused_makes hc e, hp⟩
  case accepted =>
    intro s c rest i hp hc hd _
    rw [encode_of_decode hd]
    exact ⟨.acc c, accepted_makes hc i, hp⟩
  case wr2 | wr3 | rd2 | rd4 =>
    intro s hp
    exact ⟨.xfer _ _, ⟨rfl, rfl, rfl, rfl, rfl, rfl⟩, by simp [EventFits, hp]⟩
  case pfs | pfs_last =>
    intro s hp hi
    exact ⟨.buf _ _, ⟨rfl, rfl, rfl, rfl, rfl, ⟨_, _, rfl, rfl⟩⟩, hp, by omega⟩
  case done => exact fun s hp => ⟨.rsp _ _, ⟨rfl, rfl, rfl, rfl, rfl, rfl⟩, hp⟩
  all_goals
    intro s
    intros
    have hp := ‹s.phase = _›
    exact ⟨_, ⟨rfl, rfl, rfl, rfl, rfl, rfl⟩, by rw [hp]; exact ⟨nofun, nofun, nofun⟩⟩

/-! ### The command port -/

/-- With other commands on the port a busy step does the same. -/
theorem step_withCommands (l : List Word) (hb : s.phase ≠ .idle) (h : step s = .next t) :
    step { s with commands := l } = .next { t with commands := l } ∧ t.op = s.op := by
  revert hb
  apply step_rec (h := h) (P := fun s t => s.phase ≠ .idle →
    step { s with commands := l } = .next { t with commands := l } ∧ t.op = s.op)
  case reserved | refused | accepted =>
    intros
    exact absurd ‹_ = Phase.idle› ‹_›
  case wr4_frame => exact fun s hp ho _ => ⟨step_wr4_of_frame (s := { s with commands := l }) hp ho, rfl⟩
  case wr4 => exact fun s hp ho _ => ⟨step_wr4_of_ne (s := { s with commands := l }) hp ho, rfl⟩
  case rd6_frame => exact fun s hp ho _ => ⟨step_rd6_of_frame (s := { s with commands := l }) hp ho, rfl⟩
  case rd6 => exact fun s hp ho _ => ⟨step_rd6_of_ne (s := { s with commands := l }) hp ho, rfl⟩
  case pfs => exact fun s hp hi _ => ⟨step_pfs_of_lt (s := { s with commands := l }) hp hi, rfl⟩
  case pfs_last => exact fun s hp hi _ => ⟨step_pfs_of_last (s := { s with commands := l }) hp hi, rfl⟩
  all_goals
    intro s hp _
    exact ⟨by simp only [step, hp]; rfl, rfl⟩

end Sys2Proof.Machine
end

section
/-! PROOFS. Every step keeps the state invariant (R31), one part at a time: for each part the steps that leave it alone
share one frame lemma, and only the steps that change it are looked at one by one. -/

namespace Sys2Proof.Machine

variable {s t : State}

/-! ### The session -/

/-- In the phases of a transaction the session is Ready; this is the flag of `SessionInv.ready`. -/
def Phase.needsReady (p : Phase) : Bool := p.inWrite || p.inRead || decide (p = .pfs)

/-- A step that keeps the session and goes between phases of one kind keeps the session's invariant. -/
theorem SessionInv.of_session_eq {p : Phase} (h : SessionInv s) (hp : s.phase = p) (hs : t.session = s.session)
    (hr : (t.phase.inConstruct || t.phase.inPulse) = (p.inConstruct || p.inPulse))
    (hn : (t.phase.needsReady && !p.needsReady) = false) : SessionInv t := by
  subst hp
  refine ⟨by rw [hs, hr]; exact h.inReset, fun ht => hs.trans (h.ready ?_)⟩
  change t.phase.needsReady = true at ht
  rw [ht, Bool.true_and, Bool.not_eq_false'] at hn
  exact hn

theorem sessionInv_of_ready (hs : t.session = .ready) (hr : (t.phase.inConstruct || t.phase.inPulse) = false) :
    SessionInv t :=
  ⟨by rw [hs, hr]; exact ⟨nofun, nofun⟩, fun _ => hs⟩

theorem sessionInv_of_inReset (hs : t.session = .inReset) (hr : (t.phase.inConstruct || t.phase.inPulse) = true)
    (hn : t.phase.needsReady = false) : SessionInv t :=
  ⟨by rw [hs, hr]; exact ⟨fun _ => rfl, fun _ => rfl⟩, fun ht => absurd (ht.symm.trans hn) nofun⟩

/-- CONSTRUCT is accepted in the session Uninitialized only, every other command in the session Ready only (R163). -/
theorem session_of_firstError_eq_none {i : Instr} {ses : Session} (h : firstError i ses = none) :
    ses = if i.opcode = 0x1#4 then .uninitialized else .ready := by
  have hm := firstError_eq_none.mp h
  cases i with
  | construct u => exact hm
  | wrreg z sel d => exact hm.2
  | rdreg z sel u => exact hm.2
  | isatt u => exact hm.elim
  | _ => exact hm

theorem acceptAction_sessionInv {i : Instr} (u : State) (h : firstError i u.session = none) :
    SessionInv (acceptAction i u) := by
  have hses := session_of_firstError_eq_none h
  cases i with
  | construct _ => exact sessionInv_of_inReset rfl rfl rfl
  | reset _ => exact sessionInv_of_inReset rfl rfl rfl
  | isatt _ => cases h
  | _ => exact sessionInv_of_ready hses rfl

theorem step_keeps_sessionInv (hi : SessionInv s) (h : step s = .next t) : SessionInv t := by
  revert hi
  apply step_rec (P := fun s t => SessionInv s → SessionInv t) (h := h)
  case accepted => exact fun _ _ _ _ _ _ _ hn _ => acceptAction_sessionInv _ hn
  case rst4 => exact fun _ _ _ => sessionInv_of_ready rfl rfl
  all_goals
    intro s
    intros
    have hp := ‹s.phase = _›
    exact SessionInv.of_session_eq ‹_› hp rfl rfl rfl

/-! ### The pins -/

/-- The six pin elements and the clock mode, in the order of `PinsInv`. -/
def pinsOf (s : State) : Option Direction × Option Direction × Option Direction × Option Direction ×
    Option Level × Option Level × Option ClockMode :=
  (s.dirNreset, s.dirNcs, s.dirMosi, s.dirMiso, s.nreset, s.ncs, s.clkmode)

/-- What `PinsInv` asks of them after `n` steps of the construct sequence, in phase `p`. -/
def pinsAt (n : Nat) (p : Phase) : Option Direction × Option Direction × Option Direction × Option Direction ×
    Option Level × Option Level × Option ClockMode :=
  (if 1 ≤ n then some .output else none,
    if 2 ≤ n then some .output else none,
    if 3 ≤ n then some (if p.listens then .input else .output) else none,
    if 4 ≤ n then some .input else none,
    if 5 ≤ n then some (if p.holdsReset then .low else .high) else none,
    if 6 ≤ n then some (if p.selects then .low else .high) else none,
    if 7 ≤ n then some .mode11 else none)

theorem pinsInv_iff : PinsInv s ↔ pinsOf s = pinsAt (constructStage s) s.phase := by
  simp only [pinsOf, pinsAt, Prod.mk.injEq]
  constructor
  · rintro ⟨hdn, hdc, hdo, hdi, hn, hc, hm⟩
    exact ⟨hdn, hdc, hdo, hdi, hn, hc, hm⟩
  · rintro ⟨hdn, hdc, hdo, hdi, hn, hc, hm⟩
    exact ⟨hdn, hdc, hdo, hdi, hn, hc, hm⟩

/-- Outside CON1 to CON9 none of the nine steps has been taken, or all of them. -/
theorem constructStage_of_not_inConstruct (hp : s.phase.inConstruct = false) :
    constructStage s = if s.session = .uninitialized then 0 else 9 := by
  unfold constructStage
  split
  case h_10 => cases s.session <;> rfl
  all_goals
    rw [‹s.phase = _›] at hp
    cases hp

/-- In the phases of a pulse or of a transaction the session has left Uninitialized. -/
theorem SessionInv.constructed {p : Phase} (h : SessionInv s) (hp : s.phase = p)
    (hq : (p.inPulse || p.needsReady) = true) : s.session ≠ .uninitialized := by
  subst hp
  rcases Bool.or_eq_true_iff.mp hq with hpulse | hready
  · rw [h.inReset.mpr (by rw [hpulse, Bool.or_true])]
    nofun
  · rw [h.ready hready]
    nofun

/-- Between two phases outside the construct sequence, in one session, a step that leaves the pins alone keeps their
invariant if the two phases ask the same of them. -/
theorem PinsInv.of_session_eq {p : Phase} (h : PinsInv s) (hp : s.phase = p) (hcs : p.inConstruct = false)
    (hct : t.phase.inConstruct = false) (hs : t.session = s.session) (hk : pinsOf t = pinsOf s)
    (ha : ∀ n, pinsAt n t.phase = pinsAt n p) : PinsInv t := by
  subst hp
  rw [pinsInv_iff, constructStage_of_not_inConstruct hcs] at h
  rw [pinsInv_iff, constructStage_of_not_inConstruct hct, hs, hk, ha]
  exact h

/-- Once the construct sequence is over, a step keeps the pins' invariant if it makes of the pins what the phase after
it asks. -/
theorem PinsInv.of_constructed {p : Phase} (h : PinsInv s) (hs : s.session ≠ .uninitialized) (hp : s.phase = p)
    (hcs : p.inConstruct = false) (hct : t.phase.inConstruct = false) (ht : t.session ≠ .uninitialized)
    (hk : pinsOf s = pinsAt 9 p → pinsOf t = pinsAt 9 t.phase) : PinsInv t := by
  subst hp
  rw [pinsInv_iff, constructStage_of_not_inConstruct hcs, if_neg hs] at h
  rw [pinsInv_iff, constructStage_of_not_inConstruct hct, if_neg ht]
  exact hk h

theorem acceptAction_pinsInv {i : Instr} {u : State} (hp : u.phase = .idle) (hn : firstError i u.session = none)
    (h : PinsInv u) : PinsInv (acceptAction i u) := by
  have hses := session_of_firstError_eq_none hn
  cases i with
  | construct _ =>
    have hu : u.session = .uninitialized := hses
    rw [pinsInv_iff, constructStage_of_not_inConstruct (by rw [hp]; rfl), if_pos hu, hp] at h
    exact pinsInv_iff.mpr h
  | isatt _ => cases hn
  | reset _ => exact h.of_constructed (by rw [hses]; nofun) hp rfl rfl nofun id
  | _ =>
    have hu : u.session ≠ .uninitialized := by rw [hses]; nofun
    exact h.of_constructed hu hp rfl rfl hu id

theorem step_keeps_pinsInv (hses : SessionInv s) (hi : PinsInv s) (h : step s = .next t) : PinsInv t := by
  revert hses hi
  apply step_rec (P := fun s t => SessionInv s → PinsInv s → PinsInv t) (h := h)
  case reserved => exact fun s _ _ _ hp _ _ _ hi => hi.of_session_eq hp rfl rfl rfl rfl fun _ => rfl
  case refused => exact fun s _ _ _ _ hp _ _ _ _ hi => hi.of_session_eq hp rfl rfl rfl rfl fun _ => rfl
  case done => exact fun s hp _ hi => hi.of_session_eq hp rfl rfl rfl rfl fun _ => rfl
  case accepted =>
    intro s c rest i hp _ _ hn _ hi
    have h := pinsInv_iff.mp hi
    exact acceptAction_pinsInv hp hn (pinsInv_iff.mpr h)
  case con1 | con2 | con3 | con4 | con5 | con6 | con7 | con8 | con9 =>
    intro s hp hses hi
    have hs : s.session = .inReset := hses.inReset.mpr (by rw [hp]; rfl)
    rw [pinsInv_iff] at hi ⊢
    simp only [pinsOf, pinsAt, constructStage, hp, Prod.mk.injEq] at hi ⊢
    simp [stepCon1, stepCon2, stepCon3, stepCon4, stepCon5, stepCon6, stepCon7, stepCon8, stepCon9, hi, hs,
      Phase.selects, Phase.listens, Phase.holdsReset]
  case rst4 =>
    intro s hp hses hi
    exact hi.of_constructed (hses.constructed hp rfl) hp rfl rfl nofun id
  all_goals
    intro s
    intros
    have hp := ‹s.phase = _›
    have hs := SessionInv.constructed ‹_› hp rfl
    refine PinsInv.of_constructed ‹PinsInv s› hs hp rfl rfl hs fun hk => ?_
    simp only [pinsOf, pinsAt, Prod.mk.injEq] at hk ⊢
    simp [stepRst1, stepRst2, stepRst3, stepWr1, stepWr2, stepWr3, stepRd1, stepRd2, stepRd3, stepRd4, stepRd5, hk,
      Phase.selects, Phase.listens, Phase.holdsReset]

/-! ### The latches, by the kind of phase -/

theorem latchInv_of_idle (hp : t.phase = .idle) : LatchInv t := by
  constructor <;> simp [hp, Phase.inConstruct, Phase.inPulse, Phase.inWrite, Phase.inRead]

theorem latchInv_of_done (hp : t.phase = .done) (ho : t.op.isSome) (hr : t.st.isSome ∧ t.val.isSome) : LatchInv t := by
  constructor <;> simp [hp, ho, hr, Phase.inConstruct, Phase.inPulse, Phase.inWrite, Phase.inRead]

theorem latchInv_of_con1 (hp : t.phase = .con1) (ho : t.op = some 0x1#4) : LatchInv t := by
  constructor <;> simp [hp, ho, Phase.inConstruct, Phase.inPulse, Phase.inWrite, Phase.inRead]

theorem latchInv_of_rst1 (hp : t.phase = .rst1) (ho : t.op = some 0x1#4 ∨ t.op = some 0x2#4) : LatchInv t := by
  constructor <;> rcases ho with ho | ho <;>
    simp [hp, ho, Phase.inConstruct, Phase.inPulse, Phase.inWrite, Phase.inRead]

/-- What a write needs: WRREG's latches, or those of PIXFRAME's rewind (R81, R141). -/
theorem latchInv_of_wr1 (hp : t.phase = .wr1) (ha : t.areg.isSome) (hd : t.dreg.isSome)
    (ho : t.op = some 0x3#4 ∨ t.op = some opPixframe ∧ t.areg = some t.cfg.addrPixel ∧ t.dreg = some Config.rewind) :
    LatchInv t := by
  constructor <;> rcases ho with ho | ⟨ho, hreg, hdat⟩ <;>
    simp [*, opPixframe, Phase.inConstruct, Phase.inPulse, Phase.inWrite, Phase.inRead]

/-- What a read needs: an address under the opcode of a reading command, or a round of a frame with its slot (R85, R100,
R141). -/
theorem latchInv_of_rd1 {o : BitVec 4} (hp : t.phase = .rd1) (ha : t.areg.isSome) (ho : t.op = some o)
    (hr : 0x4 ≤ o.toNat ∧ o.toNat ≤ 0xA)
    (hf : o = opPixframe → t.areg = some t.cfg.addrPixel ∧ ∃ i, t.idx = some i ∧ i.toNat < Config.frameLen) :
    LatchInv t := by
  constructor
  case opRead => exact fun _ => ⟨o, ho, hr⟩
  case frame => exact fun h _ => (hf (Option.some.inj (ho.symm.trans h))).1
  case idx => exact fun h _ => (hf (Option.some.inj (ho.symm.trans h))).2
  all_goals simp [hp, ho, ha, Phase.inConstruct, Phase.inPulse, Phase.inWrite, Phase.inRead]

theorem latchInv_of_pfs (hp : t.phase = .pfs) (ho : t.op = some opPixframe) (ha : t.areg = some t.cfg.addrPixel)
    (hx : t.rx.isSome) (hi : ∃ i, t.idx = some i ∧ i.toNat < Config.frameLen) : LatchInv t := by
  constructor <;> simp [hp, ho, ha, hx, hi, Phase.inConstruct, Phase.inPulse, Phase.inWrite, Phase.inRead]

/-- CON1 to CON9, RST1 to RST4, WR1 to WR4 and RD1 to RD6 are none of IDLE, PFS and DONE. -/
theorem Phase.ne_of_inSequence {p : Phase} (h : (p.inConstruct || p.inPulse || p.inWrite || p.inRead) = true) :
    p ≠ .idle ∧ p ≠ .pfs ∧ p ≠ .done := by
  revert h
  cases p <;> decide

/-- A step between two phases of one kind that writes no latch but `rx` keeps the latches' invariant. -/
theorem LatchInv.of_latches_eq {p : Phase} (h : LatchInv s) (hp : s.phase = p)
    (hk : (t.op, t.areg, t.dreg, t.idx, t.cfg) = (s.op, s.areg, s.dreg, s.idx, s.cfg))
    (hg : (t.phase.inConstruct, t.phase.inPulse, t.phase.inWrite, t.phase.inRead) =
      (p.inConstruct, p.inPulse, p.inWrite, p.inRead))
    (hb : (p.inConstruct || p.inPulse || p.inWrite || p.inRead) = true)
    (hx : t.phase = .rd5 ∨ t.phase = .rd6 → t.rx.isSome) : LatchInv t := by
  subst hp
  simp only [Prod.mk.injEq] at hk hg
  obtain ⟨ho, ha, hd, hi, hc⟩ := hk
  obtain ⟨hcon, hpul, hwri, hrea⟩ := hg
  obtain ⟨hsidle, hspfs, -⟩ := Phase.ne_of_inSequence hb
  obtain ⟨-, htpfs, htdone⟩ := Phase.ne_of_inSequence (p := t.phase) (by rw [hcon, hpul, hwri, hrea, hb])
  have hfs : decide (s.phase = .pfs) = false := decide_eq_false hspfs
  have hft : decide (t.phase = .pfs) = false := decide_eq_false htpfs
  obtain ⟨opBusy, opCon, opPulse, opWrite, opRead, -, areg, dreg, -, -, frame, rewind, idx⟩ := h
  rw [hfs] at areg frame idx
  constructor
  case response => exact fun h => absurd h htdone
  case rx => exact fun h => hx (h.imp_right fun h => h.resolve_right htpfs)
  case opBusy => exact fun _ => ho ▸ opBusy hsidle
  case opPfs => exact fun h => absurd h htpfs
  all_goals
    simp only [ho, ha, hd, hi, hc, hcon, hpul, hwri, hrea, hft]
    assumption

theorem isSome_addr_of_not_isReserved {sel : RegSel} (h : sel.isReserved = false) (cfg : Config) :
    (sel.addr cfg).isSome := by
  rw [RegSel.addr_isSome, h]
  rfl

theorem acceptAction_latchInv {i : Instr} {u : State} (hn : firstError i u.session = none)
    (ho : u.op = some i.opcode) : LatchInv (acceptAction i u) := by
  cases i with
  | construct _ => exact latchInv_of_con1 rfl ho
  | reset _ => exact latchInv_of_rst1 rfl (.inr ho)
  | wrreg z sel d =>
    obtain ⟨hres, -⟩ := firstError_eq_none.mp hn
    exact latchInv_of_wr1 rfl (isSome_addr_of_not_isReserved hres _) rfl (.inl ho)
  | rdreg z sel d =>
    obtain ⟨hres, -⟩ := firstError_eq_none.mp hn
    exact latchInv_of_rd1 rfl (isSome_addr_of_not_isReserved hres _) ho (by simp [Instr.opcode]) nofun
  | pixframe _ => exact latchInv_of_wr1 rfl rfl rfl (.inr ⟨ho, rfl, rfl⟩)
  | isatt _ => cases hn
  | _ => exact latchInv_of_rd1 rfl rfl ho (by simp [Instr.opcode]) nofun

theorem step_keeps_latchInv (hi : LatchInv s) (h : step s = .next t) : LatchInv t := by
  revert hi
  apply step_rec (P := fun s t => LatchInv s → LatchInv t) (h := h)
  case reserved => exact fun _ _ _ _ _ _ _ _ => latchInv_of_done rfl rfl ⟨rfl, rfl⟩
  case refused => exact fun _ _ _ _ _ _ _ _ _ _ => latchInv_of_done rfl rfl ⟨rfl, rfl⟩
  case accepted =>
    exact fun _ _ _ i _ _ _ hn _ => acceptAction_latchInv hn (by rw [acceptWord_op, opField_encode])
  case con9 => exact fun s hp hi => latchInv_of_rst1 rfl (.inl (hi.opCon (by rw [hp]; rfl)))
  case done => exact fun _ _ _ => latchInv_of_idle rfl
  case rst4 | wr4 | rd6 | pfs_last =>
    intro s
    intros
    have hp := ‹s.phase = _›
    have ho := LatchInv.opBusy ‹LatchInv s› (by rw [hp]; nofun)
    exact latchInv_of_done rfl ho ⟨rfl, rfl⟩
  case wr4_frame =>
    intro s hp ho hi
    exact latchInv_of_rd1 rfl (hi.areg (by rw [hp]; rfl)) ho (by decide)
      fun _ => ⟨hi.frame ho (by rw [hp]; rfl), 0#8, rfl, by decide⟩
  case rd6_frame =>
    intro s hp ho hi
    exact latchInv_of_pfs rfl ho (hi.frame ho (by rw [hp]; rfl)) (hi.rx (.inr (.inl hp)))
      (hi.idx ho (by rw [hp]; rfl))
  case pfs =>
    intro s hp hlt hi
    have ho := hi.opPfs hp
    have hnext : (readIdx s + 1#8).toNat < Config.frameLen := by
      rw [BitVec.toNat_add]
      exact lt_of_le_of_lt (Nat.mod_le _ _) hlt
    exact latchInv_of_rd1 rfl (hi.areg (by rw [hp]; rfl)) ho (by decide)
      fun _ => ⟨hi.frame ho (by rw [hp]; rfl), _, rfl, hnext⟩
  case rd4 =>
    intro s hp hi
    exact hi.of_latches_eq hp rfl rfl rfl fun _ => rfl
  case rd5 =>
    intro s hp hi
    exact hi.of_latches_eq hp rfl rfl rfl fun _ => hi.rx (.inl hp)
  all_goals
    intro s hp hi
    exact hi.of_latches_eq hp rfl rfl rfl nofun

/-! ### The whole invariant -/

theorem step_keeps_bufWf (hi : Memory.wf s.buf = true) (h : step s = .next t) : Memory.wf t.buf = true := by
  obtain ⟨e, hm, -⟩ := step_makes h
  have hb := hm.buf
  split at hb
  · obtain ⟨i, v, -, hw⟩ := hb
    rw [hw]
    exact Memory.wf_write _ _ _ hi
  · rw [hb]
    exact hi

theorem step_keeps_inv (hi : Inv s) (h : step s = .next t) : Inv t where
  pins := step_keeps_pinsInv hi.session hi.pins h
  session := step_keeps_sessionInv hi.session h
  latch := step_keeps_latchInv hi.latch h
  buf := step_keeps_bufWf hi.buf h

theorem PowerOn.inv (h : PowerOn s) : Inv s where
  pins := by
    have hst : constructStage s = 0 := by
      rw [constructStage_of_not_inConstruct (by rw [h.phase]; rfl), if_pos h.session]
    rw [pinsInv_iff, hst]
    simp only [pinsOf, h.dirNreset, h.dirNcs, h.dirMosi, h.dirMiso, h.nreset, h.ncs, h.clkmode]
    rfl
  session := ⟨by rw [h.session, h.phase]; exact ⟨nofun, nofun⟩, by rw [h.phase]; nofun⟩
  latch := latchInv_of_idle h.phase
  buf := h.buf

theorem Reachable.inv (h : Reachable s) : Inv s :=
  h.induct (fun _ => PowerOn.inv) fun _ _ => step_keeps_inv

end Sys2Proof.Machine
end

section
/-! PROOFS. What a run keeps of its events: `Acc` and `Rsp` alternate (R27), and before the first CONSTRUCT nothing is
touched (R31 item 5). -/

namespace Sys2Proof.Machine

variable {s t : State}

/-! ### `Acc` and `Rsp` -/

/-- The event of a phase opens a command in IDLE, closes one in DONE, and does neither elsewhere. -/
theorem commandOpen_cons_of_eventFits {p : Phase} {e : Event} {older : List Event} (he : EventFits p e)
    (h : commandOpen older = some (decide (p ≠ .idle))) :
    commandOpen (e :: older) = some (decide (p ≠ .done)) := by
  cases e <;> simp only [EventFits] at he
  case acc c => simp [commandOpen, h, he]
  case rsp x w => simp [commandOpen, h, he]
  case xfer o i => rcases he with rfl | rfl | rfl | rfl <;> simp [commandOpen, h]
  case buf i v => simp [commandOpen, h, he]
  all_goals
    obtain ⟨hidle, -, hdone⟩ := he
    simp [commandOpen, h, hidle, hdone]

theorem step_keeps_portInv (hi : PortInv s) (h : step s = .next t) : PortInv t := by
  obtain ⟨e, hm, he⟩ := step_makes h
  have hbusy : busy t = decide (s.phase ≠ .done) := by
    simp only [busy, ne_eq, step_phase_idle_iff h]
  rw [PortInv, hm.trace, hbusy]
  exact commandOpen_cons_of_eventFits he hi

/-! ### Before the first CONSTRUCT -/

/-- A session that has not begun is idle, or answers a refusal. -/
theorem SessionInv.phase_of_uninitialized (h : SessionInv s) (hs : s.session = .uninitialized) :
    s.phase = .idle ∨ s.phase = .done := by
  have hr := h.inReset
  have hn := h.ready
  rw [hs] at hr hn
  cases hp : s.phase <;> rw [hp] at hr hn
  case idle => exact .inl rfl
  case done => exact .inr rfl
  case pfs => cases hn rfl
  case wr1 | wr2 | wr3 | wr4 | rd1 | rd2 | rd3 | rd4 | rd5 | rd6 => cases hn rfl
  all_goals cases hr.mpr rfl

/-- After the accept step of a command that passes its checks the session is not Uninitialized. -/
theorem acceptAction_session_ne_uninitialized {i : Instr} {u : State} (hn : firstError i u.session = none) :
    (acceptAction i u).session ≠ .uninitialized := by
  have hses := session_of_firstError_eq_none hn
  cases i with
  | construct _ => nofun
  | reset _ => nofun
  | isatt _ => cases hn
  | _ =>
    have hu : u.session ≠ .uninitialized := by rw [hses]; nofun
    exact hu

/-- CONSTRUCT passes its checks in the session Uninitialized. -/
theorem opcode_ne_of_refused {i : Instr} {e : CmdError} (h : firstError i .uninitialized = some e) :
    i.opcode ≠ 0x1#4 := by
  cases i with
  | construct _ => cases h
  | _ => simp [Instr.opcode]

/-- The session leaves Uninitialized by an accepted CONSTRUCT, and in no other way, and no step returns to it (R120). -/
theorem step_session_uninitialized_iff (hi : SessionInv s) (h : step s = .next t) :
    t.session = .uninitialized ↔
      s.session = .uninitialized ∧ ∀ c, t.trace = .acc c :: s.trace → opField c ≠ 0x1#4 := by
  revert hi
  apply step_rec (h := h) (P := fun s t => SessionInv s → (t.session = .uninitialized ↔
    s.session = .uninitialized ∧ ∀ c, t.trace = .acc c :: s.trace → opField c ≠ 0x1#4))
  case reserved =>
    intro s c rest e _ _ hd _
    refine ⟨fun hs => ⟨hs, fun c' hc' => ?_⟩, And.left⟩
    cases hc'
    rcases opField_of_decode_error hd with h | h | h | h | h <;> simp [h]
  case refused =>
    intro s c rest i e _ _ _ he _
    refine ⟨fun (hs : s.session = _) => ⟨hs, fun c' hc' => ?_⟩, And.left⟩
    cases hc'
    rw [hs] at he
    rw [opField_encode]
    exact opcode_ne_of_refused he
  case accepted =>
    intro s c rest i _ _ hd hn _
    refine ⟨fun hs => absurd hs (acceptAction_session_ne_uninitialized hn), fun ⟨hs, hc⟩ => ?_⟩
    obtain ⟨-, -, -, -, -, htr, -⟩ := acceptAction_frame i (acceptWord (encode i) { s with commands := rest })
    have hop : i.opcode ≠ 0x1#4 := opField_encode i ▸ hc (encode i) htr
    have hses := session_of_firstError_eq_none hn
    rw [hs, if_neg hop] at hses
    cases hses
  case rst4 =>
    intro s hp hi
    exact ⟨nofun, fun hs => absurd hs.1 (hi.constructed hp rfl)⟩
  all_goals
    intro s
    intros
    refine ⟨fun hs => ⟨hs, fun c hc => ?_⟩, And.left⟩
    cases hc

theorem step_keeps_untouchedInv (hi : Inv s) (hu : UntouchedInv s) (h : step s = .next t) : UntouchedInv t := by
  obtain ⟨e, hm, he⟩ := step_makes h
  have hses := step_session_uninitialized_iff hi.session h
  rw [hm.trace] at hses
  constructor
  · rw [hses, hu.session, hm.trace]
    simp only [List.mem_cons, List.cons.injEq, and_true]
    constructor
    · rintro ⟨hold, hnew⟩ c (rfl | hc)
      · exact hnew c rfl
      · exact hold c hc
    · intro hall
      exact ⟨fun c hc => hall c (.inr hc), fun c hc => hall c (.inl hc.symm)⟩
  · intro ht
    obtain ⟨hs, -⟩ := hses.mp ht
    rw [hm.trace]
    exact List.forall_mem_cons.mpr
      ⟨not_isCollaborator_of_eventFits he (hi.session.phase_of_uninitialized hs), hu.quiet hs⟩

theorem PowerOn.untouchedInv (h : PowerOn s) : UntouchedInv s := by
  constructor <;> simp [h.trace, h.session]

theorem Reachable.untouchedInv (h : Reachable s) : UntouchedInv s :=
  (Reachable.induct (P := fun s => Inv s ∧ UntouchedInv s) (fun _ h => ⟨h.inv, h.untouchedInv⟩)
    (fun _ _ ⟨hi, hu⟩ h => ⟨step_keeps_inv hi h, step_keeps_untouchedInv hi hu h⟩) h).2

end Sys2Proof.Machine
end

section
/-! PROOFS. How long an operation takes (R30): every step of a busy sequencer brings the end one step nearer. -/

namespace Sys2Proof.Machine

variable {s t : State}

/-- The steps from the end of a read transaction, its RD6 not counted, to IDLE (R30): one for the answer, or, in a frame,
the store, the rounds of the slots still to come, and the answer. -/
def stepsAfterRead (s : State) : Nat :=
  if s.op = some opPixframe then 7 * (Config.frameLen - (readIdx s).toNat - 1) + 2 else 1

theorem stepsLeft_rd1 (hp : s.phase = .rd1) : stepsLeft s = 6 + stepsAfterRead s := by simp only [stepsLeft, hp]; rfl
theorem stepsLeft_rd2 (hp : s.phase = .rd2) : stepsLeft s = 5 + stepsAfterRead s := by simp only [stepsLeft, hp]; rfl
theorem stepsLeft_rd3 (hp : s.phase = .rd3) : stepsLeft s = 4 + stepsAfterRead s := by simp only [stepsLeft, hp]; rfl
theorem stepsLeft_rd4 (hp : s.phase = .rd4) : stepsLeft s = 3 + stepsAfterRead s := by simp only [stepsLeft, hp]; rfl
theorem stepsLeft_rd5 (hp : s.phase = .rd5) : stepsLeft s = 2 + stepsAfterRead s := by simp only [stepsLeft, hp]; rfl
theorem stepsLeft_rd6 (hp : s.phase = .rd6) : stepsLeft s = 1 + stepsAfterRead s := by simp only [stepsLeft, hp]; rfl
theorem stepsLeft_pfs (hp : s.phase = .pfs) : stepsLeft s = 0 + stepsAfterRead s := by
  simp only [stepsLeft, hp, Nat.zero_add]; rfl
theorem stepsLeft_done (hp : s.phase = .done) : stepsLeft s = 1 := by simp only [stepsLeft, hp]
theorem stepsLeft_idle (hp : s.phase = .idle) : stepsLeft s = 0 := by simp only [stepsLeft, hp]

/-- The sequencer is busy as long as steps are left, and no longer. -/
theorem stepsLeft_eq_zero_iff : stepsLeft s = 0 ↔ s.phase = .idle := by
  cases hp : s.phase <;> by_cases ho : s.op = some opPixframe <;> simp [stepsLeft, hp, ho]

theorem stepsLeft_le (s : State) : stepsLeft s ≤ 1580 := by
  cases hp : s.phase <;> by_cases ho : s.op = some opPixframe <;> simp [stepsLeft, hp, ho, Config.frameLen]
  all_goals omega

theorem stepsAfterRead_of_ne (ho : s.op ≠ some opPixframe) : stepsAfterRead s = 1 := if_neg ho

theorem stepsAfterRead_of_idx {i : Byte} (ho : s.op = some opPixframe) (hi : s.idx = some i) :
    stepsAfterRead s = 7 * (Config.frameLen - i.toNat - 1) + 2 := by
  rw [stepsAfterRead, if_pos ho, readIdx_of_idx hi]

/-- A step of a read, or from its end to the store, that keeps the opcode and the slot: the steps after the read stay. -/
theorem stepsLeft_of_read_step {n : Nat} {p : Phase} (hi : LatchInv s) (hp : s.phase = p) (hr : p.inRead = true)
    (hs : stepsLeft s = n + 1 + stepsAfterRead s) (ht : stepsLeft t = n + stepsAfterRead t)
    (ho : t.op = s.op) (hx : t.idx = s.idx) : stepsLeft s = stepsLeft t + 1 := by
  have hk : stepsAfterRead t = stepsAfterRead s := by
    by_cases hop : s.op = some opPixframe
    · obtain ⟨i, hidx, -⟩ := hi.idx hop (by rw [hp, hr]; rfl)
      rw [stepsAfterRead_of_idx hop hidx, stepsAfterRead_of_idx (ho.trans hop) (hx.trans hidx)]
    · rw [stepsAfterRead_of_ne hop, stepsAfterRead_of_ne (ho ▸ hop)]
  omega

/-- A step that begins the round of slot `i`. -/
theorem stepsLeft_of_step_to_round {i : Byte} (hs : stepsLeft s = 6 + (7 * (Config.frameLen - i.toNat - 1) + 2) + 1)
    (hp : t.phase = .rd1) (ho : t.op = some opPixframe) (hi : t.idx = some i) : stepsLeft s = stepsLeft t + 1 := by
  rw [hs, stepsLeft_rd1 hp, stepsAfterRead_of_idx ho hi]

theorem step_stepsLeft (hi : LatchInv s) (hb : s.phase ≠ .idle) (h : step s = .next t) :
    stepsLeft s = stepsLeft t + 1 := by
  revert hi hb
  apply step_rec (h := h) (P := fun s t => LatchInv s → s.phase ≠ .idle → stepsLeft s = stepsLeft t + 1)
  case reserved | refused | accepted =>
    intros
    exact absurd ‹_ = Phase.idle› ‹_›
  case rd1 => exact fun s hp hi _ => stepsLeft_of_read_step hi hp rfl (stepsLeft_rd1 hp) (stepsLeft_rd2 rfl) rfl rfl
  case rd2 => exact fun s hp hi _ => stepsLeft_of_read_step hi hp rfl (stepsLeft_rd2 hp) (stepsLeft_rd3 rfl) rfl rfl
  case rd3 => exact fun s hp hi _ => stepsLeft_of_read_step hi hp rfl (stepsLeft_rd3 hp) (stepsLeft_rd4 rfl) rfl rfl
  case rd4 => exact fun s hp hi _ => stepsLeft_of_read_step hi hp rfl (stepsLeft_rd4 hp) (stepsLeft_rd5 rfl) rfl rfl
  case rd5 => exact fun s hp hi _ => stepsLeft_of_read_step hi hp rfl (stepsLeft_rd5 hp) (stepsLeft_rd6 rfl) rfl rfl
  case rd6_frame =>
    exact fun s hp _ hi _ => stepsLeft_of_read_step hi hp rfl (stepsLeft_rd6 hp) (stepsLeft_pfs rfl) rfl rfl
  case rd6 =>
    intro s hp ho _ _
    rw [stepsLeft_rd6 hp, stepsLeft_done rfl, stepsAfterRead_of_ne ho]
  case pfs =>
    intro s hp hlt hi _
    have ho := hi.opPfs hp
    obtain ⟨i, hidx, -⟩ := hi.idx ho (by rw [hp]; rfl)
    rw [readIdx_of_idx hidx] at hlt ⊢
    have hnext : (i + 1#8).toNat = i.toNat + 1 := by
      rw [BitVec.toNat_add]
      exact Nat.mod_eq_of_lt (hlt.trans (by decide))
    refine stepsLeft_of_step_to_round (i := i + 1#8) ?_ rfl ho rfl
    rw [stepsLeft_pfs hp, stepsAfterRead_of_idx ho hidx, hnext]
    omega
  case pfs_last =>
    intro s hp heq hi _
    have ho := hi.opPfs hp
    obtain ⟨i, hidx, -⟩ := hi.idx ho (by rw [hp]; rfl)
    rw [readIdx_of_idx hidx] at heq
    rw [stepsLeft_pfs hp, stepsLeft_done rfl, stepsAfterRead_of_idx ho hidx]
    omega
  case wr4_frame =>
    intro s hp ho _ _
    refine stepsLeft_of_step_to_round (i := 0#8) ?_ rfl ho rfl
    simp only [stepsLeft, hp, ho]
    rfl
  case wr4 =>
    intro s hp ho _ _
    simp only [stepsLeft, hp, ho, if_false, finish_phase]
  case wr1 | wr2 | wr3 =>
    intro s hp _ _
    by_cases ho : s.op = some opPixframe <;>
      simp [stepsLeft, hp, stepWr1, stepWr2, stepWr3, ho, Config.frameLen]
  all_goals
    intro s hp _ _
    simp only [stepsLeft, hp]
    rfl

/-! ### The end of an operation -/

/-- An operation in progress always has its next step. -/
theorem exists_step_of_busy (hi : Inv s) (hb : s.phase ≠ .idle) : ∃ t, step s = .next t := by
  obtain ⟨t, ht, -⟩ | ⟨-, hp, -⟩ | ⟨-, hp, hlt⟩ := step_outcome s
  · exact ⟨t, ht⟩
  · exact absurd hp hb
  · obtain ⟨i, hidx, hi⟩ := hi.latch.idx (hi.latch.opPfs hp) (by rw [hp]; rfl)
    rw [readIdx_of_idx hidx] at hlt
    omega

/-- As long as steps are left they can be taken, and each takes one off. -/
theorem run_stepsLeft {m : Nat} (hi : Inv s) (hm : m ≤ stepsLeft s) :
    ∃ t, run m s = .next t ∧ stepsLeft t = stepsLeft s - m := by
  induction m generalizing s with
  | zero => exact ⟨s, rfl, rfl⟩
  | succ m ih =>
    have hb : s.phase ≠ .idle := fun hp => by
      rw [stepsLeft_idle hp] at hm
      omega
    obtain ⟨u, hu⟩ := exists_step_of_busy hi hb
    have hleft := step_stepsLeft hi.latch hb hu
    obtain ⟨t, ht, htl⟩ := ih (step_keeps_inv hi hu) (by omega)
    exact ⟨t, (run_succ m hu).trans ht, by omega⟩

theorem operationSteps_of_refused {c : Word} {ses : Session} {e : CmdError} (h : firstErrorOfWord c ses = some e) :
    operationSteps c ses = 2 := by
  rw [operationSteps, h]
  rfl

/-- The action of an accepted command leaves all the steps of its operation but the accept step. -/
theorem stepsLeft_acceptAction {c : Word} {i : Instr} {u : State} (hd : decode c = .ok i)
    (hn : firstError i u.session = none) (ho : u.op = some i.opcode) :
    stepsLeft (acceptAction i u) + 1 = operationSteps c u.session := by
  rw [operationSteps, firstErrorOfWord_of_decode hd, hn, opField_of_decode hd]
  cases i with
  | isatt _ => cases hn
  | _ => simp [stepsLeft, acceptAction, ho, Instr.opcode, opPixframe, Config.frameLen]

/-- The accept step leaves all the steps of the operation but itself. -/
theorem exists_accept_step {c : Word} {rest : List Word} (hp : s.phase = .idle) (hc : s.commands = c :: rest) :
    ∃ t, step s = .next t ∧ stepsLeft t + 1 = operationSteps c s.session := by
  cases hd : decode c with
  | error e =>
    refine ⟨_, step_of_decode_error hp hc hd, ?_⟩
    rw [operationSteps_of_refused (firstErrorOfWord_of_decode_error hd s.session)]
    rfl
  | ok i =>
    cases hn : firstError i s.session with
    | none =>
      have ho : opField c = i.opcode := opField_of_decode hd
      exact ⟨_, step_of_accepted hp hc hd hn, stepsLeft_acceptAction hd hn (congrArg some ho)⟩
    | some e =>
      refine ⟨_, step_of_refused hp hc hd hn, ?_⟩
      rw [operationSteps_of_refused (firstErrorOfWord_of_decode hd s.session ▸ hn)]
      rfl

end Sys2Proof.Machine
end

section
/-! PROOFS. What the invariant says of the pins, the session and the slot of a state: the items of R31. -/

namespace Sys2Proof.Machine

variable {s t : State}

theorem Phase.listens_iff {p : Phase} : p.listens = true ↔ p = .rd4 ∨ p = .rd5 := by
  cases p <;> decide

theorem Phase.selects_iff {p : Phase} : p.selects = true ↔
    p = .wr2 ∨ p = .wr3 ∨ p = .wr4 ∨ p = .rd2 ∨ p = .rd3 ∨ p = .rd4 ∨ p = .rd5 ∨ p = .rd6 := by
  cases p <;> decide

theorem Phase.holdsReset_iff {p : Phase} : p.holdsReset = true ↔
    p = .con6 ∨ p = .con7 ∨ p = .con8 ∨ p = .con9 ∨ p = .rst2 ∨ p = .rst3 := by
  cases p <;> decide

/-- The data pin is Input only within a bracket. -/
theorem Phase.selects_of_listens {p : Phase} (h : p.listens = true) : p.selects = true := by
  revert h
  cases p <;> decide

/-- A bracket stands in the phases of a transaction. -/
theorem Phase.needsReady_of_selects {p : Phase} (h : p.selects = true) : p.needsReady = true := by
  revert h
  cases p <;> decide

theorem Phase.inConstruct_of_needsReady {p : Phase} (h : p.needsReady = true) : p.inConstruct = false := by
  revert h
  cases p <;> decide

/-- Once the construct sequence is over every pin and the clock mode have a value, by the phase (R31 item 7). -/
theorem Inv.pins_of_constructed (hi : Inv s) (hp : s.phase.inConstruct = false) (hs : s.session ≠ .uninitialized) :
    s.ncs = some (if s.phase.selects then .low else .high) ∧
      s.nreset = some (if s.phase.holdsReset then .low else .high) ∧
      s.dirMosi = some (if s.phase.listens then .input else .output) ∧ s.dirMiso = some .input ∧
      s.dirNcs = some .output ∧ s.dirNreset = some .output ∧ s.clkmode = some .mode11 := by
  have h := pinsInv_iff.mp hi.pins
  rw [constructStage_of_not_inConstruct hp, if_neg hs] at h
  simp only [pinsOf, pinsAt, Prod.mk.injEq] at h
  obtain ⟨hdn, hdc, hdo, hdi, hn, hc, hm⟩ := h
  exact ⟨hc, hn, hdo, hdi, hdc, hdn, hm⟩

/-- In the session Uninitialized no pin has been touched (R31 item 5). -/
theorem Inv.pins_of_uninitialized (hi : Inv s) (hs : s.session = .uninitialized) :
    s.ncs = none ∧ s.nreset = none ∧ s.dirNreset = none ∧ s.dirNcs = none ∧ s.dirMosi = none ∧ s.dirMiso = none ∧
      s.clkmode = none := by
  have hp : s.phase.inConstruct = false := by
    rcases hi.session.phase_of_uninitialized hs with hp | hp <;> rw [hp] <;> rfl
  have h := pinsInv_iff.mp hi.pins
  rw [constructStage_of_not_inConstruct hp, if_pos hs] at h
  simp only [pinsOf, pinsAt, Prod.mk.injEq] at h
  obtain ⟨hdn, hdc, hdo, hdi, hn, hc, hm⟩ := h
  exact ⟨hc, hn, hdn, hdc, hdo, hdi, hm⟩

/-- Within a bracket the session is Ready and the construct sequence is over. -/
theorem Inv.of_selects (hi : Inv s) (h : s.phase.selects = true) :
    s.session = .ready ∧ s.phase.inConstruct = false ∧ s.session ≠ .uninitialized := by
  have hn := Phase.needsReady_of_selects h
  have hs : s.session = .ready := hi.session.ready hn
  exact ⟨hs, Phase.inConstruct_of_needsReady hn, by rw [hs]; nofun⟩

/-- A pin that has one of two values from stage `n` on has the first only where the phase asks for it. -/
theorem of_driven_eq_some {α : Type} {n m : Nat} {b : Bool} {x y : α}
    (h : (if n ≤ m then some (if b then x else y) else none) = some x) (hxy : y ≠ x) : b = true := by
  by_contra hb
  simp [hb, hxy] at h

/-- The data pin is Input exactly in RD4 and RD5 (R31 item 1). -/
theorem Inv.dirMosi_eq_input_iff (hi : Inv s) : s.dirMosi = some .input ↔ s.phase.listens = true := by
  refine ⟨fun h => of_driven_eq_some (hi.pins.dirMosi.symm.trans h) nofun, fun h => ?_⟩
  obtain ⟨-, hp, hs⟩ := hi.of_selects (Phase.selects_of_listens h)
  obtain ⟨-, -, hd, -⟩ := hi.pins_of_constructed hp hs
  rw [hd, if_pos h]

/-- Chip-select is Low exactly within a bracket (R31 item 2). -/
theorem Inv.ncs_eq_low_iff (hi : Inv s) : s.ncs = some .low ↔ s.phase.selects = true := by
  refine ⟨fun h => of_driven_eq_some (hi.pins.ncs.symm.trans h) nofun, fun h => ?_⟩
  obtain ⟨-, hp, hs⟩ := hi.of_selects h
  obtain ⟨hc, -⟩ := hi.pins_of_constructed hp hs
  rw [hc, if_pos h]

/-- The reset pin is Low only in a pulse (R31 item 8). -/
theorem Inv.holdsReset_of_nreset_low (hi : Inv s) (h : s.nreset = some .low) : s.phase.holdsReset = true :=
  of_driven_eq_some (hi.pins.nreset.symm.trans h) nofun

/-- The steps that send a byte stand within a bracket, outside a pulse. -/
theorem Phase.selects_of_eventFits_xfer {p : Phase} {o i : Byte} (h : EventFits p (.xfer o i)) :
    p.selects = true ∧ p.holdsReset = false := by
  rcases h with rfl | rfl | rfl | rfl <;> exact ⟨rfl, rfl⟩

/-- An `Xfer` is made only with chip-select Low, the reset pin High, the session Ready and the mode set (R31 item 4). -/
theorem Inv.of_xfer (hi : Inv s) (h : step s = .next t) {o i : Byte} (ht : t.trace = .xfer o i :: s.trace) :
    s.ncs = some .low ∧ s.nreset = some .high ∧ s.session = .ready ∧ s.clkmode = some .mode11 := by
  obtain ⟨e, hm, he⟩ := step_makes h
  obtain rfl : e = .xfer o i := (List.cons.inj (hm.trace.symm.trans ht)).1
  obtain ⟨hsel, hres⟩ := Phase.selects_of_eventFits_xfer he
  obtain ⟨hr, hp, hs⟩ := hi.of_selects hsel
  obtain ⟨hc, hn, -, -, -, -, hm⟩ := hi.pins_of_constructed hp hs
  rw [hsel] at hc
  rw [hres] at hn
  exact ⟨hc, hn, hr, hm⟩

/-- In the phases of the construct sequence and of a pulse the sequencer is busy. -/
theorem Phase.ne_idle_of_inReset {p : Phase} (h : (p.inConstruct || p.inPulse) = true) : p ≠ .idle := by
  rintro rfl
  cases h

/-- While a frame is read its slot is one of the 225 (R31 item 9). -/
theorem Inv.idx_of_frame (hi : Inv s) (ho : s.op = some opPixframe) (hp : s.phase.inRead = true ∨ s.phase = .pfs) :
    ∃ i, s.idx = some i ∧ i.toNat ≤ 224 := by
  obtain ⟨i, hidx, hlt⟩ := hi.latch.idx ho (by simpa using hp)
  exact ⟨i, hidx, Nat.le_of_lt_succ hlt⟩

end Sys2Proof.Machine
end

section
/-! PROOFS. The obligations on the state and its steps (10_state.md). -/

namespace Sys2Proof.Machine

/-- Settles O6: the kind of event that a phase makes, and the one way back to IDLE. -/
theorem stepKeepsAccAndRspAlternating : Obligations.StepKeepsAccAndRspAlternating :=
  fun _ _ => step_keeps_portInv

/-- Settles O7: only an accepted CONSTRUCT leaves the session Uninitialized, and in that session the sequencer is idle or
answers a refusal. -/
theorem stepKeepsUntouchedUntilConstruct : Obligations.StepKeepsUntouchedUntilConstruct :=
  fun _ _ => step_keeps_untouchedInv

/-- Settles O9: each item is read off the invariant, which every reachable state meets. -/
theorem reachableStatesMeetTheNineItems : Obligations.ReachableStatesMeetTheNineItems := by
  intro s hs
  have hi := hs.inv
  have hu := hs.untouchedInv
  refine ⟨hi.dirMosi_eq_input_iff.trans Phase.listens_iff, hi.ncs_eq_low_iff.trans Phase.selects_iff,
    fun h => hi.ncs_eq_low_iff.mpr (Phase.selects_of_listens (hi.dirMosi_eq_input_iff.mp h)),
    fun _ _ _ h ht => hi.of_xfer h ht, ⟨hu.session, fun hn => ?_⟩, fun hr => ?_, fun hr hp => ?_,
    fun h => Phase.holdsReset_iff.mp (hi.holdsReset_of_nreset_low h), hi.idx_of_frame⟩
  · obtain ⟨hc, hnr, hdn, hdc, hdo, hdi, hm⟩ := hi.pins_of_uninitialized hn
    exact ⟨hc, hnr, hdn, hdc, hdo, hdi, hm, hu.quiet hn⟩
  · have hp := hi.session.inReset.mp hr
    exact ⟨hp, Phase.ne_idle_of_inReset hp⟩
  · have h := hi.pins_of_constructed (by rw [hp]; rfl) (by rw [hr]; nofun)
    rw [hp] at h
    exact h

/-- Settles O10: every case of a step against the graph; an accepted command goes to the phase its opcode gives. -/
theorem stepFollowsThePhaseGraph : Obligations.StepFollowsThePhaseGraph :=
  fun _ _ => step_phase_mem_graphSucc

/-- Settles O11: `Makes` says it of the event that `step_makes` finds. -/
theorem everyStepMakesOneEventAndUsesWhatItSays : Obligations.EveryStepMakesOneEventAndUsesWhatItSays := by
  intro s t h
  obtain ⟨e, hm, -⟩ := step_makes h
  exact ⟨e, hm.trace, hm.eventNo, hm.cfg, hm.commands, hm.xferIn, hm.buf⟩

/-- Settles O12: a `Buf` is made in PFS alone, at one of the 225 slots, and no other event touches the buffer. -/
theorem stepStoresOnlyToTheSlotOfItsEvent : Obligations.StepStoresOnlyToTheSlotOfItsEvent := by
  intro s t h
  obtain ⟨e, hm, he⟩ := step_makes h
  have hbuf := hm.buf
  rw [hm.trace]
  constructor
  · intro i v heq
    obtain rfl : e = .buf i v := (List.cons.inj heq).1
    obtain ⟨j, w, hj, hw⟩ := hbuf
    cases hj
    have hread (a : Nat) : readSlot t a = if a = i.toNat then some v else readSlot s a := by
      rw [readSlot, hw, Memory.read_write]
      rfl
    exact ⟨Nat.le_of_lt_succ he.2, by simp [hread], fun a ha => by simp [hread, ha]⟩
  · intro hno a
    have hb : e.isBuf = false := by
      cases e with
      | buf i v => exact absurd rfl (hno i v)
      | _ => rfl
    rw [hb] at hbuf
    exact congrArg (Memory.read · a) hbuf

/-- Settles O14: a step answers, or stops at an empty port, or stops at a slot that does not exist. -/
theorem quiescentExactlyWhenIdleWithoutACommand : Obligations.QuiescentExactlyWhenIdleWithoutACommand := by
  intro s
  obtain ⟨t, ht, hc⟩ | ⟨hq, hp, hc⟩ | ⟨hf, hp, -⟩ := step_outcome s
  · rw [ht]
    exact ⟨⟨nofun, fun ⟨hp, hn⟩ => absurd hn (hc hp)⟩, nofun⟩
  · rw [hq]
    exact ⟨⟨fun _ => ⟨hp, hc⟩, fun _ => rfl⟩, nofun⟩
  · rw [hf, hp]
    exact ⟨⟨nofun, nofun⟩, nofun⟩

/-- Settles O15: no step of a busy phase reads the port, and only IDLE makes an `Acc`. -/
theorem busyStepsIgnoreTheCommandPort : Obligations.BusyStepsIgnoreTheCommandPort := by
  intro s t l hb h
  obtain ⟨hstep, hop⟩ := step_withCommands l hb h
  refine ⟨hstep, hop, fun c hc => ?_⟩
  obtain ⟨e, hm, he⟩ := step_makes h
  obtain rfl : e = .acc c := (List.cons.inj (hm.trace.symm.trans hc)).1
  exact hb he

/-- Settles O16: the one stop of a busy step is a slot above 224, which the invariant excludes. -/
theorem busyStepsNeverStop : Obligations.BusyStepsNeverStop :=
  fun _ => exists_step_of_busy

/-- Settles O17: `stepsLeft` falls by one at every step of a busy sequencer, and is 0 in IDLE alone. -/
theorem everyOperationEndsInItsNumberOfSteps : Obligations.EveryOperationEndsInItsNumberOfSteps := by
  constructor
  · intro s hi
    obtain ⟨t, ht, hleft⟩ := run_stepsLeft hi le_rfl
    exact ⟨stepsLeft_le s, t, ht, stepsLeft_eq_zero_iff.mp (by omega)⟩
  · intro s c rest hi hp hc
    obtain ⟨u, hu, hn⟩ := exists_accept_step hp hc
    have hiu := step_keeps_inv hi hu
    rw [← hn]
    obtain ⟨t, ht, hleft⟩ := run_stepsLeft hiu le_rfl
    refine ⟨t, (run_succ _ hu).trans ht, stepsLeft_eq_zero_iff.mp (by omega), fun m v hm hlt hv => ?_⟩
    obtain ⟨k, rfl⟩ := Nat.exists_eq_add_one_of_ne_zero hm.ne'
    obtain ⟨w, hw, hk⟩ := run_stepsLeft hiu (m := k) (by omega)
    rw [run_succ k hu, hw] at hv
    cases hv
    exact mt stepsLeft_eq_zero_iff.mpr (by omega)

/-- Settles O21: the checks on the word's bits are those on the command it decodes to. -/
theorem acceptedWordsStartTheirOperation : Obligations.AcceptedWordsStartTheirOperation := by
  intro s c rest hp hc hn
  obtain ⟨i, hd, hi⟩ := decode_of_firstErrorOfWord_eq_none hn
  have hstep := step_of_accepted hp hc hd hi
  obtain ⟨ho, -, hcom, -, -, htr, -⟩ := acceptAction_frame i (acceptWord c { s with commands := rest })
  refine ⟨i, _, hd, (step_of_decode hp hc hd).symm.trans hstep, hstep, ?_, ho, htr, hcom⟩
  rw [acceptAction_phase hi, opField_of_decode hd]

/-- Settles O56: the store faults beyond the last slot, and the invariant keeps `idx` below it. -/
theorem storeBeyondTheLastSlotStops : Obligations.StoreBeyondTheLastSlotStops := by
  constructor
  · intro s i hp hi hlt
    have hr := readIdx_of_idx hi
    rw [step_pfs_of_beyond hp (hr ▸ hlt), hr]
  · intro s i hs hf
    obtain ⟨t, ht, -⟩ | ⟨hq, -, -⟩ | ⟨-, hp, -⟩ := step_outcome s
    · rw [ht] at hf
      cases hf
    · rw [hq] at hf
      cases hf
    · obtain ⟨t, ht⟩ := exists_step_of_busy hs.inv (by rw [hp]; nofun)
      rw [ht] at hf
      cases hf

/-- Settles O13: the step in IDLE, at a word that decodes. -/
theorem stepRunsTheDecodedCommand : Obligations.StepRunsTheDecodedCommand :=
  fun _ _ _ _ => step_of_decode

/-- Settles O18: `st` and `val` are read where they hold a value. -/
theorem doneRespondsAndReturns : Obligations.DoneRespondsAndReturns := by
  intro s x w hp hx hw
  have hst : readSt s = x := by rw [readSt, hx, Option.getD_some]
  have hval : readVal s = w := by rw [readVal, hw, Option.getD_some]
  rw [step_done hp, respond, hst, hval]
  rfl

end Sys2Proof.Machine
end

section
/-! PROOFS. The obligation on the sensor's bytes (20_memory.md): no byte that the sensor returns steers the
sequencer. -/

namespace Sys2Proof.Machine

variable {s s' t : State}

/-- A run of `k + 1` steps that answers is a step that answers, and `k` steps from there. -/
theorem exists_step_of_run_succ {k : Nat} (h : run (k + 1) s = .next t) :
    ∃ u, step s = .next u ∧ run k u = .next t := by
  simp only [run] at h
  cases hs : step s with
  | next u => exact ⟨u, rfl, by rwa [hs] at h⟩
  | fault f => rw [hs] at h; cases h
  | refused r => rw [hs] at h; cases h

/-- The state `s` with the inputs, `rx`, `val`, the buffer and the events of `u`. -/
def State.withBytesOf (s u : State) : State :=
  { s with xferIn := u.xferIn, rx := u.rx, val := u.val, buf := u.buf, trace := u.trace }

theorem sameButBytes_iff : SameButBytes s s' ↔ s' = s.withBytesOf s' := Iff.rfl

/-- An accepted command's action loads no byte of the sensor and looks at none. -/
theorem SameButBytes.acceptAction (i : Instr) (h : SameButBytes s s') :
    SameButBytes (acceptAction i s) (acceptAction i s') := by
  rw [sameButBytes_iff.mp h]
  cases i <;> rfl

/-- With other bytes in the state a step answers too, along the same arrow: every branch of a step is chosen by the
phase, the command port, the session, `op` or `idx` (R51, R84). -/
theorem step_withBytesOf (u : State) (h : step s = .next t) :
    ∃ t', step (s.withBytesOf u) = .next t' ∧ SameButBytes t t' := by
  apply step_rec (h := h) (P := fun s t => ∃ t', step (s.withBytesOf u) = .next t' ∧ SameButBytes t t')
  case reserved => exact fun s c rest e hp hc hd => ⟨_, step_of_decode_error (s := s.withBytesOf u) hp hc hd, rfl⟩
  case refused =>
    intro s c rest i e hp hc hd he
    rw [encode_of_decode hd]
    exact ⟨_, step_of_refused (s := s.withBytesOf u) hp hc hd he, rfl⟩
  case accepted =>
    intro s c rest i hp hc hd hn
    rw [encode_of_decode hd]
    exact ⟨_, step_of_accepted (s := s.withBytesOf u) hp hc hd hn, SameButBytes.acceptAction i rfl⟩
  case wr4_frame => exact fun s hp ho => ⟨_, step_wr4_of_frame (s := s.withBytesOf u) hp ho, rfl⟩
  case wr4 => exact fun s hp ho => ⟨_, step_wr4_of_ne (s := s.withBytesOf u) hp ho, rfl⟩
  case rd6_frame => exact fun s hp ho => ⟨_, step_rd6_of_frame (s := s.withBytesOf u) hp ho, rfl⟩
  case rd6 => exact fun s hp ho => ⟨_, step_rd6_of_ne (s := s.withBytesOf u) hp ho, rfl⟩
  case pfs => exact fun s hp hi => ⟨_, step_pfs_of_lt (s := s.withBytesOf u) hp hi, rfl⟩
  case pfs_last => exact fun s hp hi => ⟨_, step_pfs_of_last (s := s.withBytesOf u) hp hi, rfl⟩
  all_goals
    intro s hp
    refine ⟨_, by simp only [step, State.withBytesOf, hp]; rfl, ?_⟩
    rfl

theorem SameButBytes.step (hs : SameButBytes s s') (h : Machine.step s = .next t) :
    ∃ t', Machine.step s' = .next t' ∧ SameButBytes t t' := by
  rw [sameButBytes_iff.mp hs]
  exact step_withBytesOf s' h

/-- Settles O31, by induction on the number of steps: one step keeps the two states the same but for such bytes. -/
theorem sensorBytesDoNotSteer : Obligations.SensorBytesDoNotSteer := by
  intro k
  induction k with
  | zero =>
    intro s s' t hs h
    cases h
    exact ⟨s', rfl, hs⟩
  | succ k ih =>
    intro s s' t hs h
    obtain ⟨u, hu, hk⟩ := exists_step_of_run_succ h
    obtain ⟨u', hu', hsame⟩ := hs.step hu
    obtain ⟨t', ht', hout⟩ := ih u u' t hsame hk
    exact ⟨t', (run_succ k hu').trans ht', hout⟩

end Sys2Proof.Machine
end

section
/-! PROOFS. The obligations on the encoding (30_encoding.md): decoder and encoder are inverse, the reserved opcodes, the
response word, and the bits that select nothing. -/

namespace Sys2Proof.Machine

/-- A word's operand bits given as `z`, `rsel` and `data` are its three fields. -/
theorem fields_of_rest {c : Word} {z : BitVec 1} {sel : RegSel} {d : Byte} (h : restField c = z ++ sel.toBits ++ d) :
    zField c = z ∧ RegSel.ofBits (rselField c) = sel ∧ dataField c = d :=
  ⟨zField_of_rest h, by rw [rselField_of_rest h, RegSel.ofBits_toBits], dataField_of_rest h⟩

/-- The opcode picks the decoder's row, and the row reads back the operand bits (R60 to R63). -/
theorem decode_encode (i : Instr) : decode (encode i) = .ok i := by
  have hop := opField_encode i
  have hrest := restField_encode i
  cases i with
  | wrreg z sel d =>
    obtain ⟨hz, hsel, hd⟩ := fields_of_rest hrest
    simp [decode, hop, Instr.opcode, hz, hsel, hd]
  | rdreg z sel u =>
    obtain ⟨hz, hsel, hu⟩ := fields_of_rest hrest
    simp [decode, hop, Instr.opcode, hz, hsel, hu]
  | _ => simp [decode, hop, hrest, Instr.opcode, Instr.operandBits]

/-- Settles O23: the decoder's row is that of the command's opcode, and it reads back every operand and unused bit. -/
theorem decodeOfEncodeIsTheCommand : Obligations.DecodeOfEncodeIsTheCommand :=
  decode_encode

/-- Settles O24: the word is its opcode above its operand bits, and decoding keeps both. -/
theorem encodeOfDecodeIsTheWord : Obligations.EncodeOfDecodeIsTheWord :=
  fun _ _ => encode_of_decode

/-- No command has a reserved opcode (R63). -/
theorem opcode_not_reserved (i : Instr) :
    ¬ (i.opcode = 0x0#4 ∨ i.opcode = 0xC#4 ∨ i.opcode = 0xD#4 ∨ i.opcode = 0xE#4 ∨ i.opcode = 0xF#4) := by
  cases i <;> simp [Instr.opcode]

/-- A rejection names the word's own opcode (R67). -/
theorem eq_reservedOpcode_of_decode_error {c : Word} {e : DecodeError} (h : decode c = .error e) :
    e = .reservedOpcode (opField c) := by
  unfold decode at h
  split at h <;> cases h
  rfl

/-- Settles O25: a rejection names the word's opcode, which is reserved; and no word that decodes has a reserved
opcode. -/
theorem reservedOpcodesAreRejectedByName : Obligations.ReservedOpcodesAreRejectedByName := by
  intro c op
  constructor
  · intro h
    obtain rfl : op = opField c := DecodeError.reservedOpcode.inj (eq_reservedOpcode_of_decode_error h)
    exact ⟨rfl, opField_of_decode_error h⟩
  · rintro ⟨rfl, hres⟩
    cases hd : decode c with
    | ok i => exact absurd (opField_of_decode hd ▸ hres) (opcode_not_reserved i)
    | error e => rw [eq_reservedOpcode_of_decode_error hd]

/-- Settles O27: the two fields are the two halves of the appended word; the codes are R66's table. -/
theorem responseWordHasStatusAboveValue : Obligations.ResponseWordHasStatusAboveValue := by
  refine ⟨fun x w => ⟨?_, ?_⟩, rfl, rfl, rfl, rfl, rfl, rfl⟩
  · exact BitVec.extractLsb'_append_eq_left
  · exact BitVec.extractLsb'_append_eq_right

/-- The checks look at no unused bit (R61, R163). -/
theorem firstError_canonical (i : Instr) (ses : Session) : firstError i.canonical ses = firstError i ses := by
  cases i <;> rfl

/-- No command's action uses an unused bit (R61). -/
theorem acceptAction_canonical (i : Instr) : acceptAction i.canonical = acceptAction i := by
  cases i <;> rfl

/-- No command's action looks at the record of events. -/
theorem acceptAction_withTrace (i : Instr) (t : State) (tr : List Event) :
    acceptAction i { t with trace := tr } = { acceptAction i t with trace := tr } := by
  cases i <;> rfl

/-- Accepting the canonical word latches the same opcode: only the `Acc` event shows which word it was. -/
theorem acceptWord_encode_canonical (i : Instr) (s : State) :
    acceptWord (encode i.canonical) s =
      { acceptWord (encode i) s with trace := .acc (encode i.canonical) :: s.trace } := by
  simp [acceptWord, emit, Instr.opcode_canonical]

/-- An accepted command takes its own action on the accepted word (R26). -/
theorem exec_of_accepted {i : Instr} {s : State} (h : firstError i s.session = none) :
    exec i s = .next (acceptAction i (acceptWord (encode i) s)) := by
  rw [exec_eq, acceptCommand_of_none h]

/-- Settles O22: checks and action are those of the canonical command, and the accepted words differ in the event
only. -/
theorem unusedBitsAreIgnored : Obligations.UnusedBitsAreIgnored := by
  intro i s
  refine ⟨firstError_canonical i s.session, fun hn => ⟨_, exec_of_accepted hn, ?_⟩⟩
  rw [exec_of_accepted ((firstError_canonical i s.session).trans hn), acceptAction_canonical,
    acceptWord_encode_canonical, acceptAction_withTrace]

/-- Settles O26: the decoder evaluated on each of the eight words (95_test_vectors.md section 2). -/
theorem wordsOfEachFamilyDecode : Obligations.WordsOfEachFamilyDecode :=
  ⟨rfl, rfl, rfl, rfl, rfl, rfl, rfl, rfl⟩

end Sys2Proof.Machine
end

section
/-! PROOFS. Where the bus stands in each phase (R89): one position, and every step's event moves the bus from the
position of the phase before to that of the phase after. -/

namespace Sys2Proof.Machine

variable {s t : State}

/-! ### The latches that hold a value -/

theorem readAreg_of_areg {a : Byte} (h : s.areg = some a) : readAreg s = a := by
  rw [readAreg, h, Option.getD_some]

theorem readDreg_of_dreg {d : Byte} (h : s.dreg = some d) : readDreg s = d := by
  rw [readDreg, h, Option.getD_some]

theorem readRx_of_rx {v : Byte} (h : s.rx = some v) : readRx s = v := by
  rw [readRx, h, Option.getD_some]

/-! ### The position that a phase asks for -/

/-- Outside a bracket the bus is untouched until step CON6, the sixth of the construct sequence. -/
def BusPos.outside (stage : Nat) : BusPos := if stage < 6 then .untouched else .released

/-- The one position of the bus that fits a state that meets `Inv`. -/
def busPosAt (s : State) : BusPos :=
  match s.phase with
  | .wr2 | .rd2 => .selected
  | .wr3 | .rd3 => .addressed (readAreg s)
  | .wr4 => .written (readAreg s) (readDreg s)
  | .rd4 => .turned (readAreg s)
  | .rd5 => .valued (readAreg s) (readRx s)
  | .rd6 => .restored (readAreg s) (readRx s)
  | _ => .outside (constructStage s)

theorem busPosAt_of_not_selects (h : s.phase.selects = false) : busPosAt s = .outside (constructStage s) := by
  unfold busPosAt
  split
  case h_9 => rfl
  all_goals simp_all [Phase.selects]

/-- A phase that is no step of the construct sequence, once that sequence is over. -/
theorem constructStage_of_constructed (hp : s.phase.inConstruct = false) (hs : s.session ≠ .uninitialized) :
    constructStage s = 9 := by
  rw [constructStage_of_not_inConstruct hp, if_neg hs]

/-- Between two brackets, once the construct sequence is over. -/
theorem busPosAt_eq_released (hsel : s.phase.selects = false) (hp : s.phase.inConstruct = false)
    (hs : s.session ≠ .uninitialized) : busPosAt s = .released := by
  rw [busPosAt_of_not_selects hsel, constructStage_of_constructed hp hs]
  rfl

theorem Inv.constructStage_of_selects (hi : Inv s) (h : s.phase.selects = true) : constructStage s = 9 := by
  obtain ⟨-, hp, hs⟩ := hi.of_selects h
  exact constructStage_of_constructed hp hs

/-- No other position fits: within a bracket the phase and the latches give the position, outside it the stage of the
construct sequence. -/
theorem eq_busPosAt_of_busFits {b : BusPos} (hi : Inv s) (h : BusFits s b) : b = busPosAt s := by
  have hout (hsel : s.phase.selects = false) := busPosAt_of_not_selects hsel
  cases b with
  | untouched =>
    have hst : constructStage s < 6 := h
    have hsel : s.phase.selects = false := by
      by_contra hsel
      have := hi.constructStage_of_selects (by simpa using hsel)
      omega
    rw [hout hsel, BusPos.outside, if_pos hst]
  | released =>
    obtain ⟨hst, hsel⟩ := h
    rw [hout hsel, BusPos.outside, if_neg (by omega)]
  | selected => rcases h with hp | hp <;> simp [busPosAt, hp]
  | addressed a =>
    obtain ⟨hp, ha⟩ := h
    rcases hp with hp | hp <;> simp [busPosAt, hp, readAreg_of_areg ha]
  | written a d =>
    obtain ⟨hp, ha, hd⟩ := h
    simp [busPosAt, hp, readAreg_of_areg ha, readDreg_of_dreg hd]
  | turned a =>
    obtain ⟨hp, ha⟩ := h
    simp [busPosAt, hp, readAreg_of_areg ha]
  | valued a v =>
    obtain ⟨hp, ha, hv⟩ := h
    simp [busPosAt, hp, readAreg_of_areg ha, readRx_of_rx hv]
  | restored a v =>
    obtain ⟨hp, ha, hv⟩ := h
    simp [busPosAt, hp, readAreg_of_areg ha, readRx_of_rx hv]

theorem busFits_outside (h : s.phase.selects = false) : BusFits s (.outside (constructStage s)) := by
  unfold BusPos.outside
  split
  · assumption
  · exact ⟨by omega, h⟩

/-- The latches that a bracket has on the bus hold values (R182). -/
theorem Inv.latches_of_selects (hi : Inv s) (h : s.phase.selects = true) :
    (∃ a, s.areg = some a) ∧ (s.phase.inWrite = true → ∃ d, s.dreg = some d) ∧
      (s.phase = .rd5 ∨ s.phase = .rd6 → ∃ v, s.rx = some v) :=
  ⟨Option.isSome_iff_exists.mp (hi.latch.areg (Phase.needsReady_of_selects h)),
    fun hp => Option.isSome_iff_exists.mp (hi.latch.dreg hp),
    fun hp => Option.isSome_iff_exists.mp (hi.latch.rx (hp.imp_right .inl))⟩

theorem busFits_busPosAt (hi : Inv s) : BusFits s (busPosAt s) := by
  by_cases hsel : s.phase.selects = true
  · obtain ⟨⟨a, ha⟩, hd, hv⟩ := hi.latches_of_selects hsel
    have hareg : s.areg = some (readAreg s) := by rw [readAreg_of_areg ha, ha]
    have hdreg (hp : s.phase = .wr4) : s.dreg = some (readDreg s) := by
      obtain ⟨d, hd⟩ := hd (by rw [hp]; rfl)
      rw [readDreg_of_dreg hd, hd]
    have hrx (hp : s.phase = .rd5 ∨ s.phase = .rd6) : s.rx = some (readRx s) := by
      obtain ⟨v, hv⟩ := hv hp
      rw [readRx_of_rx hv, hv]
    rcases Phase.selects_iff.mp hsel with hp | hp | hp | hp | hp | hp | hp | hp <;>
      simp [busPosAt, BusFits, hp, hareg, hdreg, hrx]
  · rw [Bool.not_eq_true] at hsel
    rw [busPosAt_of_not_selects hsel]
    exact busFits_outside hsel

theorem busInv_iff (hi : Inv s) : BusInv s ↔ busPos s.trace = some (busPosAt s) := by
  constructor
  · rintro ⟨b, hb, hfit⟩
    rw [hb, eq_busPosAt_of_busFits hi hfit]
  · exact fun h => ⟨_, h, busFits_busPosAt hi⟩

/-! ### The step -/

/-- An event that is neither a level of chip-select nor an exchange leaves the bus outside a bracket as it is. -/
theorem BusPos.move_outside {e : BusEvent} (he : e = .other ∨ e = .listen ∨ e = .talk) (n : Nat) :
    (BusPos.outside n).move e = some (.outside n) := by
  unfold BusPos.outside
  split <;> rcases he with rfl | rfl | rfl <;> rfl

/-- A step that makes such an event between two phases outside a bracket keeps the bus where the phase says, if it is
not the sixth of the construct sequence. -/
theorem move_busPosAt_of_quiet {e : BusEvent} (he : e = .other ∨ e = .listen ∨ e = .talk)
    (hs : s.phase.selects = false) (ht : t.phase.selects = false)
    (hst : BusPos.outside (constructStage t) = .outside (constructStage s)) :
    (busPosAt s).move e = some (busPosAt t) := by
  rw [busPosAt_of_not_selects hs, busPosAt_of_not_selects ht, hst, BusPos.move_outside he]

/-- The step's event moves the bus from the position of the phase before to that of the phase after. -/
def MovesBus (s t : State) : Prop :=
  ∃ e, t.trace = e :: s.trace ∧ (busPosAt s).move e.onBus = some (busPosAt t)

theorem constructStage_of_idle (hp : s.phase = .idle) :
    constructStage s = if s.session = .uninitialized then 0 else 9 :=
  constructStage_of_not_inConstruct (by rw [hp]; rfl)

theorem acceptAction_movesBus {i : Instr} {u : State} (hp : s.phase = .idle) (hu : u.session = s.session)
    (hn : firstError i s.session = none) : (busPosAt s).move .other = some (busPosAt (acceptAction i u)) := by
  have hses := session_of_firstError_eq_none hn
  have hst := constructStage_of_idle hp
  rw [hses] at hst hu
  have hq (hsel : (acceptAction i u).phase.selects = false)
      (hst : constructStage (acceptAction i u) = constructStage s) :=
    move_busPosAt_of_quiet (.inl rfl) (by rw [hp]; rfl) hsel (congrArg _ hst)
  cases i with
  | isatt _ => cases hn
  | construct _ => exact hq rfl hst.symm
  | reset _ => exact hq rfl hst.symm
  | _ => exact hq rfl ((constructStage_of_constructed rfl (by exact hu ▸ nofun)).trans hst.symm)

/-- A step in one session between two phases that are no steps of the construct sequence. -/
theorem constructStage_eq_of_session_eq (hs : s.phase.inConstruct = false) (ht : t.phase.inConstruct = false)
    (hses : t.session = s.session) : constructStage t = constructStage s := by
  rw [constructStage_of_not_inConstruct hs, constructStage_of_not_inConstruct ht, hses]

/-- A step that the bus does not see, in one session, between two phases that are neither within a bracket nor steps of
the construct sequence. -/
theorem movesBus_of_session_eq {e : Event} {p : Phase} (htr : t.trace = e :: s.trace) (he : e.onBus = .other)
    (hp : s.phase = p) (hs : (p.selects || p.inConstruct) = false)
    (ht : (t.phase.selects || t.phase.inConstruct) = false) (hses : t.session = s.session) : MovesBus s t := by
  subst hp
  obtain ⟨hss, hsc⟩ := Bool.or_eq_false_iff.mp hs
  obtain ⟨hts, htc⟩ := Bool.or_eq_false_iff.mp ht
  exact ⟨e, htr, move_busPosAt_of_quiet (.inl he) hss hts
    (congrArg _ (constructStage_eq_of_session_eq hsc htc hses))⟩

theorem step_movesBus (hi : Inv s) (h : step s = .next t) : MovesBus s t := by
  revert hi
  apply step_rec (P := fun s t => Inv s → MovesBus s t) (h := h)
  case reserved =>
    intro s c rest e hp _ _ _
    exact movesBus_of_session_eq (e := .acc c) rfl rfl hp rfl rfl rfl
  case refused =>
    intro s c rest i e hp _ _ _ _
    exact movesBus_of_session_eq (e := .acc _) rfl rfl hp rfl rfl rfl
  case accepted =>
    intro s c rest i hp _ _ hn _
    obtain ⟨-, -, -, -, -, htr, -⟩ := acceptAction_frame i (acceptWord (encode i) { s with commands := rest })
    exact ⟨.acc _, htr, acceptAction_movesBus hp rfl hn⟩
  case con1 | con2 | con3 | con4 | con5 | con7 | con8 =>
    intro s hp _
    refine ⟨_, rfl, move_busPosAt_of_quiet (by simp [Event.onBus]) (by rw [hp]; rfl) rfl ?_⟩
    simp only [constructStage, hp]
    rfl
  case con6 =>
    intro s hp _
    refine ⟨.lvl .ncs .high, rfl, ?_⟩
    simp [busPosAt, constructStage, hp, stepCon6, BusPos.outside, Event.onBus, BusPos.move]
  case con9 =>
    intro s hp hi
    have hr : s.session = .inReset := hi.session.inReset.mpr (by rw [hp]; rfl)
    refine ⟨.lvl .nreset .high, rfl, move_busPosAt_of_quiet (.inl rfl) (by rw [hp]; rfl) rfl ?_⟩
    simp [constructStage, hp, hr, stepCon9, BusPos.outside]
  case rst1 | rst2 | rst3 | done | pfs | pfs_last =>
    intro s hp
    intros
    exact movesBus_of_session_eq rfl rfl hp rfl rfl rfl
  case rst4 =>
    intro s hp hi
    have hst : constructStage s = 9 :=
      constructStage_of_constructed (by rw [hp]; rfl) (hi.session.constructed hp rfl)
    exact ⟨_, rfl, move_busPosAt_of_quiet (.inl rfl) (by rw [hp]; rfl) rfl (congrArg _ hst.symm)⟩
  case wr1 | rd1 =>
    intro s hp hi
    refine ⟨.lvl .ncs .low, rfl, ?_⟩
    rw [busPosAt_eq_released (by rw [hp]; rfl) (by rw [hp]; rfl) (hi.session.constructed hp rfl)]
    rfl
  case wr2 | rd2 | rd3 | rd4 =>
    intro s hp hi
    obtain ⟨⟨a, ha⟩, -⟩ := hi.latches_of_selects (by rw [hp]; rfl)
    refine ⟨_, rfl, ?_⟩
    simp [busPosAt, hp, stepWr2, stepRd2, stepRd3, stepRd4, readAreg, readRx, ha, Event.onBus, BusPos.move]
  case wr3 =>
    intro s hp hi
    obtain ⟨⟨a, ha⟩, hd, -⟩ := hi.latches_of_selects (by rw [hp]; rfl)
    obtain ⟨d, hd⟩ := hd (by rw [hp]; rfl)
    refine ⟨_, rfl, ?_⟩
    simp [busPosAt, hp, stepWr3, readAreg, readDreg, ha, hd, Event.onBus, BusPos.move]
  case rd5 =>
    intro s hp hi
    obtain ⟨⟨a, ha⟩, -, hv⟩ := hi.latches_of_selects (by rw [hp]; rfl)
    obtain ⟨v, hv⟩ := hv (.inl hp)
    refine ⟨_, rfl, ?_⟩
    simp [busPosAt, hp, stepRd5, setDir, readAreg, readRx, ha, hv, Event.onBus, BusPos.move]
  case wr4_frame | rd6_frame | wr4 | rd6 =>
    intro s hp _ hi
    obtain ⟨-, -, hs⟩ := hi.of_selects (by rw [hp]; rfl)
    have hrelease : (busPosAt s).move .release = some .released := by
      simp only [busPosAt, hp]
      rfl
    refine ⟨.lvl .ncs .high, rfl, hrelease.trans (congrArg some ?_)⟩
    exact (busPosAt_eq_released rfl rfl (by exact hs)).symm

theorem step_keeps_busInv (hi : Inv s) (hb : BusInv s) (h : step s = .next t) : BusInv t := by
  obtain ⟨e, htr, hmove⟩ := step_movesBus hi h
  rw [busInv_iff (step_keeps_inv hi h), htr, busPos_cons, (busInv_iff hi).mp hb, Option.bind_some, hmove]

theorem PowerOn.busInv (h : PowerOn s) : BusInv s := by
  refine ⟨.untouched, by rw [h.trace]; rfl, ?_⟩
  rw [BusFits, constructStage_of_idle h.phase, h.session, if_pos rfl]
  decide

theorem Reachable.busInv (h : Reachable s) : BusInv s := by
  have hk : Inv s ∧ BusInv s := h.induct (P := fun s => Inv s ∧ BusInv s) (fun _ h => ⟨h.inv, h.busInv⟩)
    fun s t ⟨hi, hb⟩ h => ⟨step_keeps_inv hi h, step_keeps_busInv hi hb h⟩
  exact hk.2

/-- Settles O5: under `Inv` one position of the bus fits the state, and each step's event moves the bus to the position
that fits the next state. -/
theorem stepKeepsTheBracketGrammar : Obligations.StepKeepsTheBracketGrammar :=
  fun _ _ => step_keeps_busInv

end Sys2Proof.Machine
end

section
/-! PROOFS. The two transactions (R82, R86): each step with its latches, and the run from the first step of a
transaction to the response of the command that ends with it. -/

namespace Sys2Proof.Machine

variable {s t : State} {a d : Byte}

/-! ### The bytes that come back -/

theorem nextXferByte_eq_inputByte (s : State) : nextXferByte s = inputByte s 0 0 := by
  unfold nextXferByte inputByte
  cases s.xferIn <;> rfl

theorem exchange_eq (o : Byte) (s : State) :
    exchange o s =
      { s with trace := .xfer o (inputByte s 0 0) :: s.trace, xferIn := s.xferIn.tail, eventNo := s.eventNo + 1 } := by
  rw [exchange, nextXferByte_eq_inputByte]
  rfl

/-- `k` exchanges and `m` events later the inputs are the same, counted from there. -/
theorem inputByte_of_drop {k m : Nat} (hx : t.xferIn = s.xferIn.drop k) (hn : t.eventNo = s.eventNo + m) (n e : Nat) :
    inputByte t n e = inputByte s (k + n) (m + e) := by
  simp only [inputByte, hx, hn, List.getElem?_drop, Nat.add_assoc]

/-! ### The steps that read a latch -/

theorem step_wr2_of_areg (hp : s.phase = .wr2) (ha : s.areg = some a) :
    step s = .next { exchange a s with phase := .wr3 } := by
  rw [step_wr2 hp, stepWr2, readAreg_of_areg ha]

theorem step_wr3_of_dreg (hp : s.phase = .wr3) (hd : s.dreg = some d) :
    step s = .next { exchange d s with phase := .wr4 } := by
  rw [step_wr3 hp, stepWr3, readDreg_of_dreg hd]

theorem step_rd2_of_areg (hp : s.phase = .rd2) (ha : s.areg = some a) :
    step s = .next { exchange a s with phase := .rd3 } := by
  rw [step_rd2 hp, stepRd2, readAreg_of_areg ha]

theorem step_rd4_eq (hp : s.phase = .rd4) :
    step s = .next { exchange Config.filler s with rx := some (inputByte s 0 0), phase := .rd5 } := by
  rw [step_rd4 hp, stepRd4, nextXferByte_eq_inputByte]

/-- PIXFRAME makes no result (R66). -/
theorem ne_opPixframe_of_result {o : BitVec 4} {v : Byte} {w : Word} (hw : result o v = some w) : o ≠ opPixframe := by
  rintro rfl
  cases hw

theorem step_rd6_of_result {o : BitVec 4} {v : Byte} {w : Word} (hp : s.phase = .rd6) (hv : s.rx = some v)
    (ho : s.op = some o) (hw : result o v = some w) : step s = .next (finish w (driveNcs .high s)) := by
  have hne : s.op ≠ some opPixframe := by
    rw [ho]
    exact fun h => ne_opPixframe_of_result hw (Option.some.inj h)
  have hr : readResult s = w := by simp [readResult, ho, readRx_of_rx hv, hw]
  rw [step_rd6_of_ne hp hne, hr]

/-- After an operation's work the response reports what it ended with (R27). -/
theorem step_finish (w : Word) (s : State) :
    step (finish w s) = .next { emit (.rsp .ok w) (finish w s) with phase := .idle } :=
  step_done rfl

/-! ### The transactions -/

theorem tail_tail_eq_drop {α : Type} (l : List α) : l.tail.tail = l.drop 2 := by
  cases l with
  | nil => rfl
  | cons x l => exact List.drop_one.symm

/-- The state before WR4, from the state before WR1: chip-select is Low and the two bytes are sent (R82). -/
def State.writeSent (a d : Byte) (s : State) : State :=
  { s with
    ncs := some .low, phase := .wr4, xferIn := s.xferIn.drop 2
    trace := .xfer d (inputByte s 1 2) :: .xfer a (inputByte s 0 1) :: .lvl .ncs .low :: s.trace
    eventNo := s.eventNo + 3 }

theorem run_to_wr4 (hp : s.phase = .wr1) (ha : s.areg = some a) (hd : s.dreg = some d) :
    run 3 s = .next (s.writeSent a d) := by
  have h1 := step_wr1 hp
  have h2 := step_wr2_of_areg (s := stepWr1 s) rfl ha
  have h3 := step_wr3_of_dreg (s := { exchange a (stepWr1 s) with phase := .wr3 }) rfl hd
  rw [run_succ 2 h1, run_succ 1 h2, run_succ 0 h3, run_zero]
  simp [State.writeSent, exchange_eq, inputByte, stepWr1, driveNcs, emit, tail_tail_eq_drop]

/-- The state before RD6, from the state before RD1: the byte that came back for the filler is in `rx`, and the data pin
is Output again (R86). -/
def State.readReturned (a : Byte) (s : State) : State :=
  { s with
    rx := some (inputByte s 1 3), ncs := some .low, dirMosi := some .output, phase := .rd6
    xferIn := s.xferIn.drop 2
    trace := .dir .mosi .output :: .xfer Config.filler (inputByte s 1 3) :: .dir .mosi .input ::
      .xfer a (inputByte s 0 1) :: .lvl .ncs .low :: s.trace
    eventNo := s.eventNo + 5 }

theorem run_to_rd6 (hp : s.phase = .rd1) (ha : s.areg = some a) : run 5 s = .next (s.readReturned a) := by
  have h1 := step_rd1 hp
  have h2 := step_rd2_of_areg (s := stepRd1 s) rfl ha
  have h3 := step_rd3 (s := { exchange a (stepRd1 s) with phase := .rd3 }) rfl
  have h4 := step_rd4_eq (s := stepRd3 { exchange a (stepRd1 s) with phase := .rd3 }) rfl
  rw [run_succ 4 h1, run_succ 3 h2, run_succ 2 h3, run_succ 1 h4, run_succ 0 (step_rd5 rfl), run_zero]
  simp [State.readReturned, exchange_eq, inputByte, stepRd1, stepRd3, stepRd5, setDir, driveNcs, emit,
    tail_tail_eq_drop]

/-! ### The commands that are one transaction -/

/-- A write that is no rewind of a frame: the transaction, and the response OK (R81). -/
theorem run_write (hp : s.phase = .wr1) (ha : s.areg = some a) (hd : s.dreg = some d)
    (ho : s.op ≠ some opPixframe) :
    run 5 s = .next
      { s with
        st := some .ok, val := some 0#16, ncs := some .high, phase := .idle, xferIn := s.xferIn.drop 2
        trace := .rsp .ok 0#16 :: writeEvents a d (inputByte s 0 1) (inputByte s 1 2) ++ s.trace
        eventNo := s.eventNo + 5 } := by
  have h4 := step_wr4_of_ne (s := s.writeSent a d) rfl ho
  rw [run_add (m := 2) (run_to_wr4 hp ha hd), run_succ 1 h4, run_succ 0 (step_finish _ _)]
  rfl

/-- A read that is no round of a frame: the transaction, and the response with the opcode's result (R85, R100). -/
theorem run_read {o : BitVec 4} {w : Word} (hp : s.phase = .rd1) (ha : s.areg = some a) (ho : s.op = some o)
    (hw : result o (inputByte s 1 3) = some w) :
    run 7 s = .next
      { s with
        rx := some (inputByte s 1 3), st := some .ok, val := some w, ncs := some .high, dirMosi := some .output
        phase := .idle, xferIn := s.xferIn.drop 2
        trace := .rsp .ok w :: readEvents a (inputByte s 0 1) (inputByte s 1 3) ++ s.trace
        eventNo := s.eventNo + 7 } := by
  have h6 := step_rd6_of_result (s := s.readReturned a) rfl rfl ho hw
  rw [run_add (m := 2) (run_to_rd6 hp ha), run_succ 1 h6, run_succ 0 (step_finish _ _)]
  rfl

/-- The inputs from the accept step on are those after its `Acc`. -/
theorem inputByte_of_accepted (hx : t.xferIn = s.xferIn) (hn : t.eventNo = s.eventNo + 1) (n e : Nat) :
    inputByte t n e = inputByte s n (1 + e) := by
  simpa using inputByte_of_drop (k := 0) hx hn n e

/-- A reading command completes, if its action is to load the address `a` and to go to RD1 and its result of the byte
that comes back is `w`. -/
theorem readCompletes {i : Instr} {w : Word} (hn : firstError i s.session = none)
    (hact : acceptAction i (acceptWord (encode i) s) = { acceptWord (encode i) s with areg := some a, phase := .rd1 })
    (hw : result i.opcode (valueByte s) = some w) : ReadCompletes i a w s := by
  have hbyte := inputByte_of_accepted (s := s)
    (t := { acceptWord (encode i) s with areg := some a, phase := .rd1 }) rfl rfl
  refine ⟨{ acceptWord (encode i) s with areg := some a, phase := .rd1 }, ?_, ?_, ?_⟩
  · rw [exec_of_accepted hn, hact]
  · simp [acceptWord, emit]
  · rw [run_read rfl rfl (congrArg some (opField_encode i)) (by rw [hbyte]; exact hw), hbyte, hbyte]
    simp [acceptWord, emit, valueByte]

end Sys2Proof.Machine
end

section
/-! PROOFS. The obligations on the transactions (40_bus_transactions.md). -/

namespace Sys2Proof.Machine

variable {s t : State}

/-! ### The results (R66) -/

theorem zext16_eq_ofNat (v : Byte) : zext16 v = BitVec.ofNat 16 v.toNat := by
  apply BitVec.eq_of_toNat_eq
  have hv : v.toNat < 65536 := v.isLt.trans (by decide)
  rw [zext16, BitVec.toNat_append]
  simp [Nat.mod_eq_of_lt hv]

theorem sext16_eq_ofInt (v : Byte) : sext16 v = BitVec.ofInt 16 (s8 v) := by
  revert v
  decide

/-- The table of R87 gives the opcode's result. -/
theorem result_of_table {o : BitVec 4} {v : Byte} {w : Word}
    (h : (o = 0x4#4 ∨ o = 0x8#4) ∧ w = BitVec.ofNat 16 v.toNat ∨
      o = 0x5#4 ∧ w = (if 128 ≤ v.toNat then 1#16 else 0#16) ∨
      (o = 0x6#4 ∨ o = 0x7#4) ∧ w = BitVec.ofInt 16 (s8 v) ∨
      o = 0x9#4 ∧ w = (if v = 0x00#8 then 500#16 else 1000#16)) : result o v = some w := by
  rw [← zext16_eq_ofNat, ← sext16_eq_ofInt] at h
  rcases h with ⟨rfl | rfl, rfl⟩ | ⟨rfl, rfl⟩ | ⟨rfl | rfl, rfl⟩ | ⟨rfl, rfl⟩ <;> rfl

/-! ### The pins of a transaction -/

/-- In the phases of a transaction, and between the rounds of a frame, every pin has the value the phase gives it. -/
theorem Inv.pins_of_needsReady (hi : Inv s) (h : s.phase.needsReady = true) :
    s.ncs = some (if s.phase.selects then .low else .high) ∧
      s.dirMosi = some (if s.phase.listens then .input else .output) ∧ s.dirMiso = some .input := by
  obtain ⟨hc, -, hd, hm, -⟩ := hi.pins_of_constructed (Phase.inConstruct_of_needsReady h)
    (hi.session.constructed rfl (by rw [h, Bool.or_true]))
  exact ⟨hc, hd, hm⟩

theorem Phase.not_listens_of_inWrite {p : Phase} (h : p.inWrite = true) : p.needsReady = true ∧ p.listens = false := by
  revert h
  cases p <;> decide

theorem Phase.needsReady_of_inRead {p : Phase} (h : p.inRead = true) : p.needsReady = true := by
  rw [Phase.needsReady, h, Bool.or_true, Bool.true_or]

/-- Settles O28: each step with its latches; the invariant gives the opcodes and the pin. -/
theorem writeTransactionStepsAndContinuation : Obligations.WriteTransactionStepsAndContinuation := by
  constructor
  · intro s a d ha hd
    refine ⟨step_wr1, fun hp => ?_, fun hp => ?_, step_wr4_of_frame, step_wr4_of_ne⟩
    · rw [step_wr2_of_areg hp ha, exchange_eq]
    · rw [step_wr3_of_dreg hp hd, exchange_eq]
  · intro s hs
    refine ⟨fun hp => hs.inv.latch.opWrite (by rw [hp]; rfl), fun hw => ?_⟩
    obtain ⟨hready, hlisten⟩ := Phase.not_listens_of_inWrite hw
    obtain ⟨-, hd, -⟩ := hs.inv.pins_of_needsReady hready
    rw [hd, hlisten]
    rfl

/-- Settles O29: each step with its latches, the result by its table; the invariant gives the opcodes and the pins. -/
theorem readTransactionStepsAndContinuation : Obligations.ReadTransactionStepsAndContinuation := by
  constructor
  · intro s a ha
    refine ⟨step_rd1, fun hp => ?_, step_rd3, fun hp => ?_, step_rd5, step_rd6_of_frame,
      fun v o w hp hv ho hw => step_rd6_of_result hp hv ho (result_of_table hw)⟩
    · rw [step_rd2_of_areg hp ha, exchange_eq]
    · rw [step_rd4_eq hp, exchange_eq]
      rfl
  · intro s hs
    have hpins (hr : s.phase.inRead = true) := hs.inv.pins_of_needsReady (Phase.needsReady_of_inRead hr)
    refine ⟨fun hp => hs.inv.latch.opRead (by rw [hp]; rfl), fun hr => ?_, fun hp => ?_, fun hp => ?_⟩
    · obtain ⟨-, -, hm⟩ := hpins hr
      exact hm
    · obtain ⟨hc, -⟩ := hpins (by rw [hp]; rfl)
      rw [hc, hp]
      rfl
    · have hwindow : s.phase.inRead = true ∧ s.phase.listens = false := by
        rcases hp with hp | hp | hp | hp <;> rw [hp] <;> exact ⟨rfl, rfl⟩
      obtain ⟨hr, hlisten⟩ := hwindow
      obtain ⟨-, hd, -⟩ := hpins hr
      rw [hd, hlisten]
      rfl

/-- With other inputs an exchange is the same, but for the inputs left and the byte in the event. -/
theorem exchange_withXferIn (o : Byte) (s : State) (l : List Byte) :
    exchange o { s with xferIn := l } =
      { exchange o s with
        xferIn := l.tail, trace := .xfer o (inputByte { s with xferIn := l } 0 0) :: s.trace } := by
  rw [exchange_eq, exchange_eq]

/-- The steps that send an address or a data byte: one exchange of a latch, whatever the inputs are (R84). -/
theorem step_of_sends (hp : s.phase = .wr2 ∨ s.phase = .wr3 ∨ s.phase = .rd2) :
    ∃ o p, ∀ l, step { s with xferIn := l } = .next { exchange o { s with xferIn := l } with phase := p } := by
  rcases hp with hp | hp | hp
  · exact ⟨readAreg s, .wr3, fun l => step_wr2 (s := { s with xferIn := l }) hp⟩
  · exact ⟨readDreg s, .wr4, fun l => step_wr3 (s := { s with xferIn := l }) hp⟩
  · exact ⟨readAreg s, .rd3, fun l => step_rd2 (s := { s with xferIn := l }) hp⟩

/-- An `Xfer` sends the filler in RD4, and an address or a data byte elsewhere; what comes back is the next input. -/
theorem of_step_xfer {o i : Byte} (h : step s = .next t) (ht : t.trace = .xfer o i :: s.trace) :
    (s.phase = .rd4 ∧ o = Config.filler ∨ s.phase = .wr2 ∨ s.phase = .wr3 ∨ s.phase = .rd2) ∧
      i = nextXferByte s := by
  obtain ⟨e, hm, he⟩ := step_makes h
  obtain rfl : e = .xfer o i := (List.cons.inj (hm.trace.symm.trans ht)).1
  by_cases hp : s.phase = .rd4
  · rw [step_rd4 hp] at h
    cases h
    cases ht
    exact ⟨.inl ⟨hp, rfl⟩, rfl⟩
  · have hsend : s.phase = .wr2 ∨ s.phase = .wr3 ∨ s.phase = .rd2 := by simpa [EventFits, hp] using he
    obtain ⟨o', p, hstep⟩ := step_of_sends hsend
    rw [hstep s.xferIn] at h
    cases h
    cases ht
    exact ⟨.inr hsend, rfl⟩

/-- Settles O30: the invariant gives the pin, and the phase of the step the byte. -/
theorem dataPinListensOnlyForTheFiller : Obligations.DataPinListensOnlyForTheFiller := by
  intro s hs
  refine ⟨hs.inv.dirMosi_eq_input_iff.trans Phase.listens_iff, fun t o i h ht => ?_⟩
  obtain ⟨⟨hp, rfl⟩ | hp, -⟩ := of_step_xfer h ht
  · exact .inl ⟨hs.inv.dirMosi_eq_input_iff.mpr (by rw [hp]; rfl), hp, rfl⟩
  · have hout : s.phase.needsReady = true ∧ s.phase.listens = false := by
      rcases hp with hp | hp | hp <;> rw [hp] <;> exact ⟨rfl, rfl⟩
    obtain ⟨hready, hlisten⟩ := hout
    obtain ⟨-, hd, -⟩ := hs.inv.pins_of_needsReady hready
    rw [hlisten] at hd
    exact .inr ⟨hd, hp⟩

/-- Settles O32: each of the three steps is an exchange of a latch, which keeps no byte. -/
theorem bytesReceivedWhileSendingAreDropped : Obligations.BytesReceivedWhileSendingAreDropped := by
  intro s t l hp h
  obtain ⟨o, p, hstep⟩ := step_of_sends hp
  rw [hstep s.xferIn] at h
  cases h
  refine ⟨o, nextXferByte s, rfl, ?_, rfl⟩
  rw [hstep l, exchange_withXferIn]

/-- Settles O33: the accept step loads the latches, and a write transaction follows. -/
theorem wrregCompletes : Obligations.WrregCompletes := by
  intro z sel d a s hs ha
  have hn : firstError (.wrreg z sel d) s.session = none :=
    firstError_eq_none.mpr ⟨RegSel.not_reserved_of_addr ha, hs⟩
  have hbyte := inputByte_of_accepted (s := s)
    (t := { acceptWord (encode (.wrreg z sel d)) s with areg := some a, dreg := some d, phase := .wr1 }) rfl rfl
  have hop : some (opField (encode (.wrreg z sel d))) ≠ some opPixframe := by simp [Instr.opcode, opPixframe]
  refine ⟨{ acceptWord (encode (.wrreg z sel d)) s with areg := some a, dreg := some d, phase := .wr1 }, ?_, ?_, ?_⟩
  · rw [exec_of_accepted hn, ← ha]
    rfl
  · simp [acceptWord, emit, Instr.opcode]
  · rw [run_write rfl rfl rfl hop, hbyte, hbyte]
    simp [acceptWord, emit, Instr.opcode]

/-- Settles O34: the accept step loads the address, and a read transaction follows. -/
theorem rdregCompletes : Obligations.RdregCompletes := by
  intro z sel u a s hs ha
  refine readCompletes (firstError_eq_none.mpr ⟨RegSel.not_reserved_of_addr ha, hs⟩) ?_ ?_
  · rw [← ha]
    rfl
  · exact result_of_table (.inl ⟨.inl rfl, rfl⟩)

end Sys2Proof.Machine
end

section
/-! PROOFS. Runs with a sensor on the bus (R55): such a run is a run on some list of inputs, and every byte of it is the
sensor's reply to the events before it. -/

namespace Sys2Proof.Machine

variable {reply : List Event → Byte} {s s' t u : State} {k : Nat}

/-! ### A run with a sensor is a run -/

theorem runWith_succ (k : Nat) (h : step { s with xferIn := [reply s.trace] } = .next t) :
    runWith reply (k + 1) s = runWith reply k t := by
  simp only [runWith, h]

theorem exists_step_of_runWith_succ (h : runWith reply (k + 1) s = .next t) :
    ∃ u, step { s with xferIn := [reply s.trace] } = .next u ∧ runWith reply k u = .next t := by
  simp only [runWith] at h
  cases hs : step { s with xferIn := [reply s.trace] } with
  | next u => exact ⟨u, rfl, by rwa [hs] at h⟩
  | fault f => rw [hs] at h; cases h
  | refused r => rw [hs] at h; cases h

theorem SameButBytes.withXferIn (hs : SameButBytes s s') (l : List Byte) :
    SameButBytes s { s' with xferIn := l } := by
  rw [sameButBytes_iff.mp hs]
  rfl

/-- Where a run answers, it answers with any sensor: no byte steers the sequencer (R51). -/
theorem exists_runWith_of_run (hs : SameButBytes s s') (h : run k s = .next t) :
    ∃ t', runWith reply k s' = .next t' := by
  induction k generalizing s s' with
  | zero => exact ⟨s', rfl⟩
  | succ k ih =>
    obtain ⟨u, hu, hk⟩ := exists_step_of_run_succ h
    obtain ⟨u', hu', hsame⟩ := (hs.withXferIn [reply s'.trace]).step hu
    obtain ⟨t', ht'⟩ := ih hsame hk
    exact ⟨t', (runWith_succ k hu').trans ht'⟩

/-- No command's action looks at the inputs. -/
theorem acceptAction_withXferIn (i : Instr) (u : State) (l : List Byte) :
    acceptAction i { u with xferIn := l } = { acceptAction i u with xferIn := l } := by
  cases i <;> rfl

/-- Every step is the step on inputs of which it leaves the list `l`: one byte more where it makes an exchange. -/
theorem exists_step_leaving (l : List Byte) (h : step s = .next t) :
    ∃ l', step { s with xferIn := l' } = .next { t with xferIn := l } := by
  apply step_rec (h := h) (P := fun s t => ∃ l', step { s with xferIn := l' } = .next { t with xferIn := l })
  case reserved => exact fun s c rest e hp hc hd => ⟨l, step_of_decode_error (s := { s with xferIn := l }) hp hc hd⟩
  case refused =>
    intro s c rest i e hp hc hd he
    rw [encode_of_decode hd]
    exact ⟨l, step_of_refused (s := { s with xferIn := l }) hp hc hd he⟩
  case accepted =>
    intro s c rest i hp hc hd hn
    rw [encode_of_decode hd, ← acceptAction_withXferIn]
    exact ⟨l, step_of_accepted (s := { s with xferIn := l }) hp hc hd hn⟩
  case wr2 | wr3 | rd2 | rd4 =>
    intro s hp
    exact ⟨nextXferByte s :: l, by simp only [step, hp]; rfl⟩
  case wr4_frame => exact fun s hp ho => ⟨l, step_wr4_of_frame (s := { s with xferIn := l }) hp ho⟩
  case wr4 => exact fun s hp ho => ⟨l, step_wr4_of_ne (s := { s with xferIn := l }) hp ho⟩
  case rd6_frame => exact fun s hp ho => ⟨l, step_rd6_of_frame (s := { s with xferIn := l }) hp ho⟩
  case rd6 => exact fun s hp ho => ⟨l, step_rd6_of_ne (s := { s with xferIn := l }) hp ho⟩
  case pfs => exact fun s hp hi => ⟨l, step_pfs_of_lt (s := { s with xferIn := l }) hp hi⟩
  case pfs_last => exact fun s hp hi => ⟨l, step_pfs_of_last (s := { s with xferIn := l }) hp hi⟩
  all_goals
    intro s hp
    exact ⟨l, by simp only [step, hp]; rfl⟩

/-- A run with a sensor is a run on the list of the sensor's replies. -/
theorem exists_run_of_runWith (h : runWith reply k s = .next t) :
    ∃ l, run k { s with xferIn := l } = .next { t with xferIn := [] } := by
  induction k generalizing s with
  | zero =>
    cases h
    exact ⟨[], rfl⟩
  | succ k ih =>
    obtain ⟨u, hu, hk⟩ := exists_step_of_runWith_succ h
    obtain ⟨l, hl⟩ := ih hk
    obtain ⟨l', hl'⟩ := exists_step_leaving l hu
    exact ⟨l', (run_succ k hl').trans hl⟩

/-! ### Every byte is the sensor's reply -/

/-- Of the events `new` after `base`, newest first, every exchange returned the reply to the events before it. -/
def AnsweredBy (reply : List Event → Byte) (base : List Event) : List Event → Prop
  | [] => True
  | e :: new => (∀ o i, e = .xfer o i → i = reply (new ++ base)) ∧ AnsweredBy reply base new

theorem AnsweredBy.eq_reply {base newer older : List Event} {o i : Byte}
    (h : AnsweredBy reply base (newer ++ .xfer o i :: older)) : i = reply (older ++ base) := by
  induction newer with
  | nil => exact h.1 o i rfl
  | cons e newer ih => exact ih h.2

theorem answeredBy_of_runWith {base new : List Event} (hs : s.trace = new ++ base) (ha : AnsweredBy reply base new)
    (h : runWith reply k s = .next t) : ∃ new', t.trace = new' ++ base ∧ AnsweredBy reply base new' := by
  induction k generalizing s new with
  | zero =>
    cases h
    exact ⟨new, hs, ha⟩
  | succ k ih =>
    obtain ⟨u, hu, hk⟩ := exists_step_of_runWith_succ h
    obtain ⟨e, hm, -⟩ := step_makes hu
    have htr : u.trace = e :: (new ++ base) := hm.trace.trans (congrArg (e :: ·) hs)
    refine ih (new := e :: new) htr ⟨fun o i he => ?_, ha⟩ hk
    obtain ⟨-, hi⟩ := of_step_xfer hu (he ▸ hm.trace)
    exact hi.trans (congrArg reply hs)

/-- In a run with a sensor an exchange returned the sensor's reply to the events before it (R55). -/
theorem eq_reply_of_runWith {newer older : List Event} {o i : Byte} (h : runWith reply k s = .next t)
    (ht : t.trace = (newer ++ .xfer o i :: older) ++ s.trace) : i = reply (older ++ s.trace) := by
  obtain ⟨new, hnew, ha⟩ := answeredBy_of_runWith (base := s.trace) (new := []) rfl trivial h
  obtain rfl := List.append_cancel_right (hnew.symm.trans ht)
  exact ha.eq_reply

/-! ### The two commands, presented in IDLE -/

/-- A command presented in IDLE, and what follows its accept step. -/
theorem run_of_exec {i : Instr} {rest : List Word} (hp : s.phase = .idle) (hc : s.commands = encode i :: rest)
    (he : exec i { s with commands := rest } = .next u) (hr : run k u = .next t) : run (k + 1) s = .next t :=
  (run_succ k ((step_of_decode hp hc (decode_encode i)).trans he)).trans hr

variable {sel : RegSel} {a : Byte} {rest : List Word}

theorem exists_run_wrreg {z : BitVec 1} {d : Byte} (hp : s.phase = .idle) (hs : s.session = .ready)
    (ha : sel.addr s.cfg = some a) (hc : s.commands = encode (.wrreg z sel d) :: rest) :
    ∃ t x y, run 6 s = .next t ∧ t.phase = .idle ∧ t.session = .ready ∧ t.cfg = s.cfg ∧ t.commands = rest ∧
      t.trace = .rsp .ok 0#16 :: writeEvents a d x y ++ .acc (encode (.wrreg z sel d)) :: s.trace := by
  obtain ⟨u, he, -, hr⟩ := wrregCompletes z sel d a { s with commands := rest } hs ha
  exact ⟨_, _, _, run_of_exec hp hc he hr, rfl, hs, rfl, rfl, rfl⟩

theorem exists_run_rdreg {z : BitVec 1} {d : Byte} (hp : s.phase = .idle) (hs : s.session = .ready)
    (ha : sel.addr s.cfg = some a) (hc : s.commands = encode (.rdreg z sel d) :: rest) :
    ∃ t x v, run 8 s = .next t ∧ t.phase = .idle ∧
      t.trace = .rsp .ok (BitVec.ofNat 16 v.toNat) :: readEvents a x v ++
        .acc (encode (.rdreg z sel d)) :: s.trace := by
  obtain ⟨u, he, -, hr⟩ := rdregCompletes z sel d a { s with commands := rest } hs ha
  exact ⟨_, _, _, run_of_exec hp hc he hr, rfl, rfl⟩

/-- The events of a WRREG of `d` and then a RDREG, both of the register at `a`, newest first; `v` is the byte read. -/
def echoEvents (c c' : Word) (a d x y x' v : Byte) : List Event :=
  .rsp .ok (BitVec.ofNat 16 v.toNat) :: readEvents a x' v ++ .acc c' ::
    (.rsp .ok 0#16 :: writeEvents a d x y ++ [.acc c])

theorem exists_run_wrreg_rdreg {z z' : BitVec 1} {d d' : Byte} (hp : s.phase = .idle) (hs : s.session = .ready)
    (ha : sel.addr s.cfg = some a)
    (hc : s.commands = encode (.wrreg z sel d) :: encode (.rdreg z' sel d') :: rest) :
    ∃ t x y x' v, run 14 s = .next t ∧ t.phase = .idle ∧
      t.trace = echoEvents (encode (.wrreg z sel d)) (encode (.rdreg z' sel d')) a d x y x' v ++ s.trace := by
  obtain ⟨u, x, y, hu, hpu, hsu, hcfg, hcu, htu⟩ := exists_run_wrreg hp hs ha hc
  obtain ⟨t, x', v, ht, hpt, htt⟩ := exists_run_rdreg hpu hsu (hcfg ▸ ha) hcu
  refine ⟨t, x, y, x', v, (run_add hu).trans ht, hpt, ?_⟩
  rw [htt, htu]
  rfl

/-- The echo harness answers the value exchange of that RDREG with the byte of the WRREG (R55). -/
theorem echoReply_of_released {tr : List Event} (hb : busPos tr = some .released) (c c' : Word) (a d x y x' : Byte) :
    echoReply (.dir .mosi .input :: .xfer a x' :: .lvl .ncs .low :: .acc c' ::
      (.rsp .ok 0#16 :: writeEvents a d x y ++ .acc c :: tr)) = d := by
  simp [echoReply, writeEvents, busPos_cons, hb, Event.onBus, BusPos.move, txns, BusPos.txn, harnessReg]

/-- Settles O35: the run with the harness is a run of the two commands, whose value byte is the harness's reply. -/
theorem echoHarnessReturnsTheWrittenByte : Obligations.EchoHarnessReturnsTheWrittenByte := by
  intro s z z' sel d d' rest hreach hs hp hsel hc
  obtain ⟨a, ha⟩ := Option.isSome_iff_exists.mp (isSome_addr_of_not_isReserved hsel s.cfg)
  have hbus : busPos s.trace = some .released := by
    rw [(busInv_iff hreach.inv).mp hreach.busInv,
      busPosAt_eq_released (by rw [hp]; rfl) (by rw [hp]; rfl) (by rw [hs]; nofun)]
  have hrun (l : List Byte) := exists_run_wrreg_rdreg (s := { s with xferIn := l }) hp hs ha hc
  have hsame : SameButBytes s s := rfl
  obtain ⟨_, _, _, _, _, hfree, -⟩ := hrun s.xferIn
  obtain ⟨t, ht⟩ := exists_runWith_of_run (reply := echoReply) hsame hfree
  obtain ⟨l, hl⟩ := exists_run_of_runWith ht
  obtain ⟨t', x, y, x', v, ht', hphase, htrace⟩ := hrun l
  cases hl.symm.trans ht'
  have hv : v = d := by
    have hreply := eq_reply_of_runWith (newer := [.rsp .ok _, .lvl .ncs .high, .dir .mosi .output]) ht htrace
    rw [hreply]
    exact echoReply_of_released hbus _ _ a d x y x'
  exact ⟨t, _, ht, hphase, hv ▸ htrace⟩

end Sys2Proof.Machine
end

section
/-! PROOFS. The typed reads (41_register_access.md): every reading command is the read of its register (R100), and under
the hypotheses of R47 to R49 the answer is what the sensor's law makes of that read. -/

namespace Sys2Proof.Machine

variable {s t : State} {i : Instr} {sel : RegSel} {a : Byte} {w : Word} {c : Word} {rest : List Word}

/-! ### The register of a reading command -/

/-- The register that a command's one read is of: RDREG's by its selector (R85), a typed read's own (R100). -/
def readSel : Instr → Option RegSel
  | .rdreg _ sel _ => some sel
  | .motion _ => some .motion
  | .deltax _ => some .deltaX
  | .deltay _ => some .deltaY
  | .squal _ => some .squal
  | .resmode _ => some .mode
  | .construct _ | .reset _ | .wrreg _ _ _ | .pixframe _ | .isatt _ => none

/-- The action of a reading command: load the register's address, and go to RD1 (R85, R100). -/
theorem acceptAction_of_readSel (h : readSel i = some sel) (u : State) :
    acceptAction i u = { u with areg := sel.addr u.cfg, phase := .rd1 } := by
  cases i <;> cases h <;> rfl

theorem firstError_of_readSel {ses : Session} (h : readSel i = some sel) (hsel : sel.isReserved = false)
    (hs : ses = .ready) : firstError i ses = none := by
  rw [firstError_eq_none]
  cases i <;> cases h
  case rdreg => exact ⟨hsel, hs⟩
  all_goals exact hs

/-- Every reading command has a result (R87). -/
theorem exists_result_of_readSel (h : readSel i = some sel) (v : Byte) : ∃ w, result i.opcode v = some w := by
  cases i <;> cases h <;> exact ⟨_, rfl⟩

/-- A reading command completes in the session Ready: it reads its register and answers its opcode's result. -/
theorem readCompletes_of_readSel (h : readSel i = some sel) (hs : s.session = .ready) (ha : sel.addr s.cfg = some a)
    (hw : result i.opcode (valueByte s) = some w) : ReadCompletes i a w s := by
  refine readCompletes (firstError_of_readSel h (RegSel.not_reserved_of_addr ha) hs) ?_ hw
  rw [acceptAction_of_readSel h, ← ha]
  rfl

/-- Settles O36: the read of the motion register, with the threshold as its result. -/
theorem motionCompletes : Obligations.MotionCompletes :=
  fun _ _ hs => readCompletes_of_readSel rfl hs rfl (result_of_table (.inr (.inl ⟨rfl, rfl⟩)))

/-- Settles O37: the read of the delta-x register, with the signed reading as its result. -/
theorem deltaxCompletes : Obligations.DeltaxCompletes :=
  fun _ _ hs => readCompletes_of_readSel rfl hs rfl (result_of_table (.inr (.inr (.inl ⟨.inl rfl, rfl⟩))))

/-- Settles O38: the read of the delta-y register, with the signed reading as its result. -/
theorem deltayCompletes : Obligations.DeltayCompletes :=
  fun _ _ hs => readCompletes_of_readSel rfl hs rfl (result_of_table (.inr (.inr (.inl ⟨.inr rfl, rfl⟩))))

/-- Settles O39: the read of the surface-quality register, with the byte as its result. -/
theorem squalCompletes : Obligations.SqualCompletes :=
  fun _ _ hs => readCompletes_of_readSel rfl hs rfl (result_of_table (.inl ⟨.inr rfl, rfl⟩))

/-- Settles O40: the read of the mode register, with the resolution as its result. -/
theorem resmodeCompletes : Obligations.ResmodeCompletes :=
  fun _ _ hs => readCompletes_of_readSel rfl hs rfl (result_of_table (.inr (.inr (.inr ⟨rfl, rfl⟩))))

/-! ### What the collaborators see of a reading command -/

theorem filter_isCollaborator_readEvents (a x v : Byte) :
    (readEvents a x v).filter Event.isCollaborator = readEvents a x v := rfl

/-- On the collaborators a reading command makes the events of its read transaction: neither the command nor the result
shows in them. -/
theorem ReadCompletes.exists_run (h : ReadCompletes i a w s) :
    ∃ t u, exec i s = .next t ∧ run 7 t = .next u ∧
      u.trace.filter Event.isCollaborator =
        readEvents a (inputByte s 0 2) (valueByte s) ++ s.trace.filter Event.isCollaborator := by
  obtain ⟨t, he, -, hr⟩ := h
  refine ⟨t, _, he, hr, ?_⟩
  rw [List.cons_append, List.filter_cons_of_neg (by simp [Event.isCollaborator]), List.filter_append,
    filter_isCollaborator_readEvents, List.filter_cons_of_neg (by simp [Event.isCollaborator])]

/-- Settles O41: both commands complete as the read of one register, and so with the events of one transaction. -/
theorem typedReadsLookLikeRdregOnTheBus : Obligations.TypedReadsLookLikeRdregOnTheBus := by
  intro i sel z u s hs hi
  have hsel : readSel i = some sel ∧ sel.isReserved = false := by
    rcases hi with ⟨⟨_, rfl⟩, rfl⟩ | ⟨⟨_, rfl⟩, rfl⟩ | ⟨⟨_, rfl⟩, rfl⟩ | ⟨⟨_, rfl⟩, rfl⟩ | ⟨⟨_, rfl⟩, rfl⟩ <;>
      exact ⟨rfl, rfl⟩
  obtain ⟨hread, hnamed⟩ := hsel
  obtain ⟨a, ha⟩ := Option.isSome_iff_exists.mp (isSome_addr_of_not_isReserved hnamed s.cfg)
  obtain ⟨w, hw⟩ := exists_result_of_readSel hread (valueByte s)
  obtain ⟨t₁, u₁, he₁, hr₁, htr₁⟩ := (readCompletes_of_readSel hread hs ha hw).exists_run
  obtain ⟨t₂, u₂, he₂, hr₂, htr₂⟩ := (rdregCompletes z sel u a s hs ha).exists_run
  exact ⟨t₁, u₁, t₂, u₂, he₁, hr₁, he₂, hr₂, htr₁.trans htr₂.symm⟩

/-! ### A reading command as a run, and the transaction it finishes -/

/-- A word with a command's opcode above its operand bits is that command's (R60). -/
theorem eq_encode_of_fields (hop : opField c = i.opcode) (hrest : restField c = i.operandBits) : c = encode i := by
  rw [← opField_append_restField c, hop, hrest, encode]

theorem Reachable.busPos_of_idle (h : Reachable s) (hp : s.phase = .idle) (hs : s.session = .ready) :
    busPos s.trace = some .released := by
  rw [(busInv_iff h.inv).mp h.busInv, busPosAt_eq_released (by rw [hp]; rfl) (by rw [hp]; rfl) (by rw [hs]; nofun)]

/-- The events of a reading command, made between two brackets, finish one transaction (R80, R86). -/
theorem txns_read {tr : List Event} (hb : busPos tr = some .released) (c : Word) (a x v : Byte) (w : Word) :
    txns (.rsp .ok w :: readEvents a x v ++ .acc c :: tr) = .read a v :: txns tr := by
  simp [readEvents, txns, busPos_cons, hb, Event.onBus, BusPos.move, BusPos.txn]

/-- From `s` to `t` one reading command was taken off the port, read `v` from `a` and answered `w`; the next one can
be. -/
structure ReadAnswered (a v : Byte) (w : Word) (rest : List Word) (s t : State) : Prop where
  reachable : Reachable t
  session   : t.session = .ready
  phase     : t.phase = .idle
  commands  : t.commands = rest
  cfg       : t.cfg = s.cfg
  st        : t.st = some .ok
  val       : t.val = some w
  txns      : txns t.trace = .read a v :: txns s.trace

/-- A reading command that completes, presented in IDLE as the word `c` of its opcode and operand bits. -/
theorem ReadCompletes.exists_run_readAnswered (h : ReadCompletes i a w { s with commands := rest })
    (hreach : Reachable s) (hs : s.session = .ready) (hp : s.phase = .idle) (hc : s.commands = c :: rest)
    (hop : opField c = i.opcode) (hrest : restField c = i.operandBits) :
    ∃ t, run 8 s = .next t ∧ ReadAnswered a (valueByte s) w rest s t := by
  obtain ⟨u, he, -, hr⟩ := h
  rw [eq_encode_of_fields hop hrest] at hc
  have hrun := run_of_exec hp hc he hr
  refine ⟨_, hrun, hreach.run hrun, hs, rfl, rfl, rfl, rfl, rfl, ?_⟩
  exact txns_read (hreach.busPos_of_idle hp hs) ..

/-! ### The laws of the sensor -/

theorem exists_run_motion (hreach : Reachable s) (hs : s.session = .ready) (hp : s.phase = .idle)
    (hc : s.commands = c :: rest) (hop : opField c = 0x5#4) :
    ∃ t, run 8 s = .next t ∧ ReadAnswered s.cfg.addrMotion (valueByte s)
      (if 128 ≤ (valueByte s).toNat then 0x0001#16 else 0x0000#16) rest s t :=
  (motionCompletes (restField c) { s with commands := rest } hs).exists_run_readAnswered hreach hs hp hc hop rfl

/-- Right after a read of the motion register the latch holds only what has moved since. -/
theorem motionLatch_read_motion (cfg : Config) (moved : Nat → Bool) (v : Byte) (older : List Txn) :
    motionLatch cfg moved (.read cfg.addrMotion v :: older) = moved (older.length + 1) := by
  simp [motionLatch]

/-- Settles O42: the first read clears the latch, so under H_MOTION the top bit of the second byte is 0. -/
theorem secondMotionIsZeroWithoutNewMotion : Obligations.SecondMotionIsZeroWithoutNewMotion := by
  intro s c c' rest moved hreach hs hp hc hop hop'
  obtain ⟨u, hu, hfirst⟩ := exists_run_motion hreach hs hp hc hop
  obtain ⟨t, ht, hsecond⟩ := exists_run_motion hfirst.reachable hfirst.session hfirst.phase hfirst.commands hop'
  refine ⟨t, (run_add hu).trans ht, hsecond.st, fun hm hstill => ?_⟩
  rw [hsecond.txns, hfirst.txns, hfirst.cfg] at hm
  obtain ⟨-, hlaw⟩ := hm
  have hmsb : (valueByte u).msb = false := by rw [hlaw rfl, motionLatch_read_motion, hstill]
  have hlow : ¬ 128 ≤ (valueByte u).toNat := by simpa [BitVec.msb_eq_decide] using hmsb
  rw [hsecond.val, if_neg hlow]

theorem toInt_ofInt_s8 (v : Byte) : (BitVec.ofInt 16 (s8 v)).toInt = s8 v := by
  have hbounds : -128 ≤ s8 v ∧ s8 v ≤ 127 := by
    have hv := v.isLt
    unfold s8
    split <;> omega
  exact BitVec.toInt_ofInt_eq_self (by decide) (by omega) (by omega)

theorem exists_run_delta {reg : Byte} (hreach : Reachable s) (hs : s.session = .ready) (hp : s.phase = .idle)
    (hc : s.commands = c :: rest)
    (hop : opField c = 0x6#4 ∧ reg = s.cfg.addrDeltaX ∨ opField c = 0x7#4 ∧ reg = s.cfg.addrDeltaY) :
    ∃ t, run 8 s = .next t ∧
      ReadAnswered reg (valueByte s) (BitVec.ofInt 16 (s8 (valueByte s))) rest s t := by
  rcases hop with ⟨hop, rfl⟩ | ⟨hop, rfl⟩
  · have h := deltaxCompletes (restField c) { s with commands := rest } hs
    exact h.exists_run_readAnswered hreach hs hp hc hop rfl
  · have h := deltayCompletes (restField c) { s with commands := rest } hs
    exact h.exists_run_readAnswered hreach hs hp hc hop rfl

/-- Settles O43: under H_DELTA the byte read is the count, and the answer's signed reading is the byte's. -/
theorem deltaReadsAnswerTheCount : Obligations.DeltaReadsAnswerTheCount := by
  intro s c rest count reg hreach hs hp hc hop
  obtain ⟨t, ht, hread⟩ := exists_run_delta hreach hs hp hc hop
  refine ⟨t, _, ht, hread.st, hread.val, fun hd hlo hhi => ?_⟩
  rw [hread.txns] at hd
  obtain ⟨-, hlaw⟩ := hd
  rw [toInt_ofInt_s8, hlaw rfl hlo hhi]

/-- Settles O44: the answer is the byte of the run's own read, which H_RANGE bounds. -/
theorem squalStaysInRangeUnderTheHypothesis : Obligations.SqualStaysInRangeUnderTheHypothesis := by
  intro s c rest hreach hs hp hc hop
  obtain ⟨t, ht, hread⟩ :=
    (squalCompletes (restField c) { s with commands := rest } hs).exists_run_readAnswered hreach hs hp hc hop rfl
  refine ⟨t, ht, hread.st, hread.val, fun hr => hr _ ?_⟩
  rw [hread.txns]
  exact List.mem_cons_self

end Sys2Proof.Machine
end

section
/-! PROOFS. The obligations on the session commands (42_session.md). -/

namespace Sys2Proof.Machine

variable {s : State}

/-! ### The construct sequence and the reset pulse, as runs -/

/-- Settles O45: each phase of the construct sequence has its one step. -/
theorem constructSequenceSteps : Obligations.ConstructSequenceSteps :=
  fun _ => ⟨step_con1, step_con2, step_con3, step_con4, step_con5, step_con6, step_con7, step_con8, step_con9⟩

/-- Settles O46: each phase of the pulse has its one step, and none looks at the opcode. -/
theorem resetPulseSteps : Obligations.ResetPulseSteps :=
  fun _ => ⟨step_rst1, step_rst2, step_rst3, step_rst4⟩

/-- CON1 to CON9: the pins and the clock mode are set up, and the pulse comes next (R122, R123). -/
theorem run_constructSequence (hp : s.phase = .con1) :
    run 9 s = .next
      { s with
        phase := .rst1, ncs := some .high, nreset := some .high, dirNreset := some .output
        dirNcs := some .output, dirMosi := some .output, dirMiso := some .input, clkmode := some .mode11
        trace :=
          [.lvl .nreset .high, .sleep s.cfg.tStartupMs, .cfg .mode11, .lvl .ncs .high, .lvl .nreset .low,
            .dir .miso .input, .dir .mosi .output, .dir .ncs .output, .dir .nreset .output] ++ s.trace
        eventNo := s.eventNo + 9 } := by
  rw [run_succ 8 (step_con1 hp), run_succ 7 (step_con2 rfl), run_succ 6 (step_con3 rfl), run_succ 5 (step_con4 rfl),
    run_succ 4 (step_con5 rfl), run_succ 3 (step_con6 rfl), run_succ 2 (step_con7 rfl), run_succ 1 (step_con8 rfl),
    run_succ 0 (step_con9 rfl), run_zero]
  simp [stepCon1, stepCon2, stepCon3, stepCon4, stepCon5, stepCon6, stepCon7, stepCon8, stepCon9, setDir, driveNreset,
    driveNcs, configure, sleepFor, emit]

/-- RST1 to RST4 and the response: one pulse, and the session Ready, whatever the opcode (R127). -/
theorem run_resetPulse (hp : s.phase = .rst1) :
    run 5 s = .next
      { s with
        session := .ready, st := some .ok, val := some 0x0000#16, phase := .idle, nreset := some .high
        trace :=
          [.rsp .ok 0x0000#16, .sleep s.cfg.tSettleMs, .lvl .nreset .high, .sleep s.cfg.tSettleMs,
            .lvl .nreset .low] ++ s.trace
        eventNo := s.eventNo + 5 } := by
  rw [run_succ 4 (step_rst1 hp), run_succ 3 (step_rst2 rfl), run_succ 2 (step_rst3 rfl), run_succ 1 (step_rst4 rfl),
    run_succ 0 (step_done rfl), run_zero]
  simp [stepRst1, stepRst2, stepRst3, stepRst4, driveNreset, sleepFor, finish, respond, readSt, readVal, emit]

/-! ### The commands -/

/-- Settles O47: the accept step, the construct sequence, and the pulse. -/
theorem constructCompletes : Obligations.ConstructCompletes := by
  intro u s hs
  refine ⟨_, exec_of_accepted (firstError_eq_none.mpr hs), ?_, ?_⟩
  · simp [acceptAction, acceptWord, emit, Instr.opcode]
  · rw [run_add (m := 5) (run_constructSequence rfl), run_resetPulse rfl]
    simp [acceptAction, acceptWord, emit, Instr.opcode]

/-- Settles O48: the accept step, and the pulse. -/
theorem resetCompletes : Obligations.ResetCompletes := by
  intro u s hs
  refine ⟨_, exec_of_accepted (firstError_eq_none.mpr hs), ?_, ?_⟩
  · simp [acceptAction, acceptWord, emit, Instr.opcode]
  · rw [run_resetPulse rfl]
    simp [acceptAction, acceptWord, emit, Instr.opcode]

/-- A command that fails a check takes the refusal (R164). -/
theorem exec_of_refused {i : Instr} {e : CmdError} (h : firstError i s.session = some e) :
    exec i s = .next (raise e (encode i) (acceptWord (encode i) s)) := by
  rw [exec_eq, acceptCommand_of_error h]

/-- After a refusal the response reports its status and the whole command word (R27, R165). -/
theorem step_raise (e : CmdError) (c : Word) (s : State) :
    step (raise e c s) = .next { emit (.rsp e.status c) (raise e c s) with phase := .idle } :=
  step_done rfl

/-- Settles O49: the Unsupported check fails in every session, and the response follows the refusal. -/
theorem isattAlwaysAnswersUnsupported : Obligations.IsattAlwaysAnswersUnsupported := by
  intro u s
  refine ⟨_, exec_of_refused (firstError_isatt u s.session), ?_, ?_⟩
  · simp [raise, acceptWord, emit, Instr.opcode, CmdError.status]
  · rw [run_succ 0 (step_raise _ _ _), run_zero]
    simp [raise, acceptWord, emit, Instr.opcode, CmdError.status]

/-! ### The session along every step -/

/-- An accepted command keeps the session, but for a CONSTRUCT and a RESET, which make it InReset (R120). -/
theorem acceptAction_session {i : Instr} {u : State} (hn : firstError i u.session = none) :
    (acceptAction i u).session = u.session ∨
      (u.session = .uninitialized ∧ (acceptAction i u).session = .inReset ∧ i.opcode = 0x1#4) ∨
      (u.session = .ready ∧ (acceptAction i u).session = .inReset ∧ i.opcode = 0x2#4) := by
  have hses := session_of_firstError_eq_none hn
  cases i with
  | construct _ => exact .inr (.inl ⟨hses, rfl, rfl⟩)
  | reset _ => exact .inr (.inr ⟨hses, rfl, rfl⟩)
  | _ => exact .inl rfl

/-- Settles O50: an accept step changes the session by its command's action alone, and of the other steps only RST4
does, in which the invariant has the session InReset. -/
theorem sessionChangesOnlyAsListed : Obligations.SessionChangesOnlyAsListed := by
  intro s t hi h
  revert hi
  apply step_rec (h := h) (P := fun s t => Inv s → t.session = s.session ∨
    (s.session = .uninitialized ∧ t.session = .inReset ∧ ∃ c, t.trace = .acc c :: s.trace ∧ opField c = 0x1#4) ∨
    (s.session = .inReset ∧ t.session = .ready ∧ s.phase = .rst4) ∨
    (s.session = .ready ∧ t.session = .inReset ∧ ∃ c, t.trace = .acc c :: s.trace ∧ opField c = 0x2#4))
  case accepted =>
    intro s c rest i _ hc hd hn _
    rw [encode_of_decode hd]
    have htr := (accepted_makes hc i).trace
    obtain hkept | ⟨hs, ht, hop⟩ | ⟨hs, ht, hop⟩ :=
      acceptAction_session (u := acceptWord c { s with commands := rest }) hn
    · exact .inl hkept
    · exact .inr (.inl ⟨hs, ht, c, htr, (opField_of_decode hd).trans hop⟩)
    · exact .inr (.inr (.inr ⟨hs, ht, c, htr, (opField_of_decode hd).trans hop⟩))
  case rst4 =>
    intro s hp hi
    exact .inr (.inr (.inl ⟨hi.session.inReset.mpr (by rw [hp]; rfl), rfl, hp⟩))
  all_goals
    intros
    exact .inl rfl

/-- Settles O51: the invariant ties the phase to the session; an `Xfer` is made in the session Ready only, and an `Acc`
in IDLE only. -/
theorem nothingReachesTheBusInReset : Obligations.NothingReachesTheBusInReset := by
  intro s hreach
  have hi := hreach.inv
  refine ⟨hi.session.inReset.symm, fun t e hs h ht => ?_⟩
  cases e with
  | xfer o i =>
    obtain ⟨-, -, hready, -⟩ := hi.of_xfer h ht
    cases hs.symm.trans hready
  | acc c =>
    obtain ⟨e, hm, he⟩ := step_makes h
    obtain rfl : e = .acc c := (List.cons.inj (hm.trace.symm.trans ht)).1
    exact absurd he (Phase.ne_idle_of_inReset (hi.session.inReset.mp hs))
  | _ => exact ⟨rfl, rfl⟩

end Sys2Proof.Machine
end

section
/-! PROOFS. A frame as a run (R141): the store of a slot, one round, and all the rounds from the rewind to the response,
the state after each counted from the accept step. -/

namespace Sys2Proof.Machine

variable {s : State} {a : Byte} {k : Nat}

/-! ### The store and the round -/

theorem add_one_eq_ofNat (i : Byte) : i + 1#8 = BitVec.ofNat 8 (i.toNat + 1) := by
  rw [BitVec.ofNat_add, BitVec.ofNat_toNat, BitVec.setWidth_eq]

/-- The state after the store of `v` to slot `i`, if the slot is not the last (R144). -/
def State.slotStored (i v : Byte) (s : State) : State :=
  { storeSlot i v s with idx := some (BitVec.ofNat 8 (i.toNat + 1)), phase := .rd1 }

theorem step_pfs_of_slot {i v : Byte} (hp : s.phase = .pfs) (hi : s.idx = some i) (hv : s.rx = some v)
    (hlt : i.toNat + 1 < Config.frameLen) : step s = .next (s.slotStored i v) := by
  have hr := readIdx_of_idx hi
  rw [step_pfs_of_lt hp (hr ▸ hlt), hr, readRx_of_rx hv, add_one_eq_ofNat]
  rfl

theorem step_pfs_of_last_slot {i v : Byte} (hp : s.phase = .pfs) (hi : s.idx = some i) (hv : s.rx = some v)
    (hlast : i.toNat + 1 = Config.frameLen) : step s = .next (finish 0#16 (s.slotStored i v)) := by
  have hr := readIdx_of_idx hi
  rw [step_pfs_of_last hp (hr ▸ hlast), hr, readRx_of_rx hv, add_one_eq_ofNat]
  rfl

/-- Settles O55: the store at its two slots; the invariant gives the pins in PFS. -/
theorem pixelStoreStep : Obligations.PixelStoreStep := by
  constructor
  · intro s i v hp hi hv
    refine ⟨step_pfs_of_slot hp hi hv, fun hlast => ?_⟩
    rw [step_pfs_of_last_slot hp hi hv hlast, State.slotStored, hlast]
    rfl
  · intro s hs hp
    obtain ⟨hc, hd, -⟩ := hs.inv.pins_of_needsReady (by rw [hp]; rfl)
    rw [hc, hd, hp]
    exact ⟨rfl, rfl⟩

/-- The state after the round of slot `k`, a read of `a` and the store, if the slot is not the last (R143, R144). -/
def State.roundDone (a : Byte) (k : Nat) (s : State) : State :=
  { s with
    rx := some (inputByte s 1 3), idx := some (BitVec.ofNat 8 (k + 1)), ncs := some .high, dirMosi := some .output
    phase := .rd1, xferIn := s.xferIn.drop 2, buf := Memory.write s.buf k (inputByte s 1 3)
    trace := .buf (BitVec.ofNat 8 k) (inputByte s 1 3) ::
      readEvents a (inputByte s 0 1) (inputByte s 1 3) ++ s.trace
    eventNo := s.eventNo + 7 }

theorem toNat_ofNat_of_slot (hk : k < Config.frameLen) : (BitVec.ofNat 8 k).toNat = k := by
  rw [BitVec.toNat_ofNat]
  exact Nat.mod_eq_of_lt (hk.trans (by decide))

/-- The read of a round comes to its store. -/
theorem run_to_pfs (hp : s.phase = .rd1) (ha : s.areg = some a) (ho : s.op = some opPixframe) :
    run 6 s = .next { driveNcs .high (s.readReturned a) with phase := .pfs } := by
  rw [run_add (m := 1) (run_to_rd6 hp ha), run_succ 0 (step_rd6_of_frame (s := s.readReturned a) rfl ho), run_zero]

/-- The store of a round, after its read, makes of the state before the round that after it. -/
theorem slotStored_eq_roundDone (hk : k < Config.frameLen) (a : Byte) (s : State) :
    State.slotStored (BitVec.ofNat 8 k) (inputByte s 1 3) { driveNcs .high (s.readReturned a) with phase := .pfs } =
      s.roundDone a k := by
  rw [State.slotStored, storeSlot, toNat_ofNat_of_slot hk]
  rfl

/-- A round whose slot is not the last. -/
theorem run_roundDone (hp : s.phase = .rd1) (ha : s.areg = some a) (ho : s.op = some opPixframe)
    (hi : s.idx = some (BitVec.ofNat 8 k)) (hk : k + 1 < Config.frameLen) :
    run 7 s = .next (s.roundDone a k) := by
  have hn := toNat_ofNat_of_slot (Nat.lt_of_succ_lt hk)
  have hs := step_pfs_of_slot (s := { driveNcs .high (s.readReturned a) with phase := .pfs }) rfl hi rfl
    (by rw [hn]; exact hk)
  rw [run_add (m := 1) (run_to_pfs hp ha ho), run_succ 0 hs, run_zero,
    slotStored_eq_roundDone (Nat.lt_of_succ_lt hk)]

/-- The round of the last slot ends the operation's work. -/
theorem run_lastRoundDone (hp : s.phase = .rd1) (ha : s.areg = some a) (ho : s.op = some opPixframe)
    (hi : s.idx = some (BitVec.ofNat 8 k)) (hk : k + 1 = Config.frameLen) :
    run 7 s = .next (finish 0#16 (s.roundDone a k)) := by
  have hlt : k < Config.frameLen := by omega
  have hn := toNat_ofNat_of_slot hlt
  have hs := step_pfs_of_last_slot (s := { driveNcs .high (s.readReturned a) with phase := .pfs }) rfl hi rfl
    (by rw [hn]; exact hk)
  rw [run_add (m := 1) (run_to_pfs hp ha ho), run_succ 0 hs, run_zero, slotStored_eq_roundDone hlt]

/-! ### The rounds, counted from the accept step -/

/-- The caller's buffer after the first `k` rounds of a PIXFRAME accepted in state `s`. -/
def frameBuf (s : State) : Nat → Memory
  | 0 => s.buf
  | k + 1 => Memory.write (frameBuf s k) k (frameByte s k)

theorem read_frameBuf (s : State) (n j : Nat) :
    Memory.read (frameBuf s n) j = if j < n then some (frameByte s j) else readSlot s j := by
  induction n with
  | zero => rfl
  | succ n ih =>
    rw [frameBuf, Memory.read_write, ih]
    by_cases hj : j = n
    · rw [if_pos hj, if_pos (by omega), hj]
    · rw [if_neg hj]
      congr 1
      exact propext (by omega)

/-- The events so far after `k` rounds of a PIXFRAME accepted in state `s` as the word `c`, newest first (R141). -/
def frameTrace (s : State) (c : Word) (k : Nat) : List Event :=
  frameEvents s k ++
    (writeEvents s.cfg.addrPixel Config.rewind (inputByte s 0 2) (inputByte s 1 3) ++ .acc c :: s.trace)

theorem pixframeEvents_append (s : State) (c : Word) :
    pixframeEvents s c ++ s.trace = .rsp .ok 0#16 :: frameTrace s c Config.frameLen := by
  simp only [pixframeEvents, frameTrace, List.cons_append, List.append_assoc, List.nil_append]

/-- The state after the accept step of a PIXFRAME, the word `c`, in state `s` (R141). -/
def State.frameAccepted (s : State) (c : Word) : State :=
  { s with
    op := some opPixframe, areg := some s.cfg.addrPixel, dreg := some Config.rewind, phase := .wr1
    trace := .acc c :: s.trace, eventNo := s.eventNo + 1 }

/-- The state after the rewind: the rounds begin at slot 0 (R142). -/
def State.rewound (s : State) (c : Word) : State :=
  { s with
    op := some opPixframe, areg := some s.cfg.addrPixel, dreg := some Config.rewind, idx := some 0#8
    ncs := some .high, phase := .rd1, xferIn := s.xferIn.drop 2, trace := frameTrace s c 0, eventNo := s.eventNo + 5 }

/-- The state after the round of slot `k`, if the slot is not the last. -/
def State.afterRound (s : State) (c : Word) (k : Nat) : State :=
  { s with
    op := some opPixframe, areg := some s.cfg.addrPixel, dreg := some Config.rewind, rx := some (frameByte s k)
    idx := some (BitVec.ofNat 8 (k + 1)), ncs := some .high, dirMosi := some .output, phase := .rd1
    xferIn := s.xferIn.drop (4 + 2 * k), buf := frameBuf s (k + 1), trace := frameTrace s c (k + 1)
    eventNo := s.eventNo + (12 + 7 * k) }

theorem run_rewind (s : State) (c : Word) : run 4 (s.frameAccepted c) = .next (s.rewound c) := by
  have hbyte := inputByte_of_accepted (s := s) (t := s.frameAccepted c) rfl rfl
  have h4 := step_wr4_of_frame (s := (s.frameAccepted c).writeSent s.cfg.addrPixel Config.rewind) rfl rfl
  rw [run_add (m := 1) (run_to_wr4 rfl rfl rfl), run_succ 0 h4, run_zero, State.writeSent, hbyte, hbyte]
  rfl

theorem roundDone_rewound (s : State) (c : Word) : (s.rewound c).roundDone s.cfg.addrPixel 0 = s.afterRound c 0 := by
  have hbyte := inputByte_of_drop (s := s) (t := s.rewound c) rfl rfl
  rw [State.roundDone, hbyte, hbyte]
  simp [State.rewound, State.afterRound, frameBuf, frameByte, frameTrace, frameEvents, readEvents]

theorem roundDone_afterRound (s : State) (c : Word) (k : Nat) :
    (s.afterRound c k).roundDone s.cfg.addrPixel (k + 1) = s.afterRound c (k + 1) := by
  have hbyte := inputByte_of_drop (s := s) (t := s.afterRound c k) rfl rfl
  have hvalue : inputByte (s.afterRound c k) 1 3 = frameByte s (k + 1) := by
    rw [hbyte, frameByte]
    congr 1 <;> omega
  have hdropped : inputByte (s.afterRound c k) 0 1 = inputByte s (2 + 2 * (k + 1)) (6 + 7 * (k + 1)) := by
    rw [hbyte]
    congr 1 <;> omega
  have hdrop : 4 + 2 * k + 2 = 4 + 2 * (k + 1) := by omega
  have hno : s.eventNo + (12 + 7 * k) + 7 = s.eventNo + (12 + 7 * (k + 1)) := by omega
  rw [State.roundDone, hvalue, hdropped]
  simp only [State.afterRound, List.drop_drop, hdrop, hno]
  rfl

/-- The rounds up to that of slot `k`, which is not the last. -/
theorem run_to_afterRound (s : State) (c : Word) (hk : k + 1 < Config.frameLen) :
    run (7 * (k + 1)) (s.rewound c) = .next (s.afterRound c k) := by
  induction k with
  | zero => exact (run_roundDone rfl rfl rfl rfl hk).trans (congrArg _ (roundDone_rewound s c))
  | succ k ih =>
    rw [Nat.mul_succ, run_add (ih (Nat.lt_of_succ_lt hk)), run_roundDone rfl rfl rfl rfl hk]
    exact congrArg _ (roundDone_afterRound s c k)

/-- All the rounds of a frame. -/
theorem run_frame (s : State) (c : Word) :
    run (7 * Config.frameLen) (s.rewound c) = .next (finish 0#16 (s.afterRound c 224)) := by
  have hlast := run_lastRoundDone (s := s.afterRound c 223) (k := 223 + 1) rfl rfl rfl rfl rfl
  rw [show 7 * Config.frameLen = 7 * (223 + 1) + 7 from rfl, run_add (run_to_afterRound s c (by decide)), hlast,
    roundDone_afterRound]

/-- The state after a whole PIXFRAME, accepted as the word `c` in state `s` (R141, R148). -/
def State.frameAnswered (s : State) (c : Word) : State :=
  { s with
    op := some opPixframe, areg := some s.cfg.addrPixel, dreg := some Config.rewind, rx := some (frameByte s 224)
    idx := some 225#8, st := some .ok, val := some 0#16, ncs := some .high, dirMosi := some .output, phase := .idle
    xferIn := s.xferIn.drop 452, buf := frameBuf s Config.frameLen
    trace := .rsp .ok 0#16 :: frameTrace s c Config.frameLen, eventNo := s.eventNo + 1581 }

theorem frameAnswered_buf (s : State) (c : Word) : (s.frameAnswered c).buf = frameBuf s Config.frameLen := by
  rw [State.frameAnswered]

theorem readSlot_frameAnswered (s : State) (c : Word) (j : Nat) :
    readSlot (s.frameAnswered c) j = if j < Config.frameLen then some (frameByte s j) else readSlot s j := by
  rw [readSlot, frameAnswered_buf, read_frameBuf]

theorem readSlot_frameAnswered_of_lt (s : State) (c : Word) (hk : k < Config.frameLen) :
    readSlot (s.frameAnswered c) k = some (frameByte s k) :=
  (readSlot_frameAnswered s c k).trans (if_pos hk)

/-- The rewind, the rounds and the response. -/
theorem run_frameAccepted (s : State) (c : Word) : run 1580 (s.frameAccepted c) = .next (s.frameAnswered c) := by
  have hlen : Config.frameLen = 224 + 1 := rfl
  rw [show 1580 = 4 + (7 * Config.frameLen + 1) from rfl, run_add (run_rewind s c), run_add (run_frame s c),
    run_succ 0 (step_finish _ _), run_zero]
  simp [State.frameAnswered, State.afterRound, finish, emit, hlen]

/-- The accept step of a PIXFRAME in the session Ready (R141). -/
theorem exec_pixframe (u : BitVec 12) (hs : s.session = .ready) :
    exec (.pixframe u) s = .next (s.frameAccepted (encode (.pixframe u))) := by
  rw [exec_of_accepted (firstError_eq_none.mpr hs), acceptWord, opField_encode]
  rfl

/-- Settles O57: the accept step, the rewind, the rounds, and the response. -/
theorem pixframeCompletes : Obligations.PixframeCompletes := by
  intro u s hs
  refine ⟨_, _, exec_pixframe u hs, rfl, run_frameAccepted s _, fun k hk => ?_, fun k hk => ?_, ?_⟩
  · exact readSlot_frameAnswered_of_lt s _ hk
  · exact (readSlot_frameAnswered s _ k).trans (if_neg hk.not_gt)
  · simp [State.frameAnswered, pixframeEvents_append, opPixframe, Config.rewind]

end Sys2Proof.Machine
end

section
/-! PROOFS. The obligations on a whole frame (43_pixel_frame.md): its counts, its transactions, and what the buffer holds
after it under H_PIXEL and with the pixel harness. -/

namespace Sys2Proof.Machine

variable {s t : State} {c : Word} {rest : List Word}

/-! ### The events of a frame, counted -/

/-- A PIXFRAME presented in IDLE, in the session Ready. -/
theorem run_pixframe (hs : s.session = .ready) (hp : s.phase = .idle) (hc : s.commands = c :: rest)
    (hop : opField c = 0xA#4) : run 1581 s = .next (State.frameAnswered { s with commands := rest } c) := by
  have hword : c = encode (.pixframe (restField c)) := eq_encode_of_fields hop rfl
  rw [hword] at hc ⊢
  exact run_of_exec hp hc (exec_pixframe (s := { s with commands := rest }) _ hs) (run_frameAccepted _ _)

/-- What every round has `n` of, `k` rounds have `n * k` of. -/
theorem countP_frameEvents {p : Event → Bool} {n : Nat} (s : State)
    (hround : ∀ a i x v, (Event.buf i v :: readEvents a x v).countP p = n) (k : Nat) :
    (frameEvents s k).countP p = n * k := by
  induction k with
  | zero => rfl
  | succ k ih => rw [frameEvents, List.countP_append, hround, ih, Nat.mul_succ, Nat.add_comm]

/-- What every round has `n` of, and the accept step, the rewind and the response have `m` of together. -/
theorem countP_pixframeEvents {p : Event → Bool} {n m : Nat} (s : State) (c : Word)
    (hround : ∀ a i x v, (Event.buf i v :: readEvents a x v).countP p = n)
    (hrest : ∀ a d x y, (Event.rsp .ok 0#16 :: (writeEvents a d x y ++ [.acc c])).countP p = m) :
    (pixframeEvents s c).countP p = n * Config.frameLen + m := by
  rw [← hrest s.cfg.addrPixel Config.rewind (inputByte s 0 2) (inputByte s 1 3), ← countP_frameEvents s hround]
  simp only [pixframeEvents, List.cons_append, List.countP_cons, List.countP_append]
  omega

/-- The slots of the first `k` rounds, oldest first (R145). -/
theorem slots_frameEvents (s : State) {k : Nat} (hk : k ≤ Config.frameLen) :
    (frameEvents s k).reverse.filterMap Event.slot = List.range k := by
  induction k with
  | zero => rfl
  | succ k ih =>
    have hround : (Event.buf (BitVec.ofNat 8 k) (frameByte s k) :: readEvents s.cfg.addrPixel
        (inputByte s (2 + 2 * k) (6 + 7 * k)) (frameByte s k)).reverse.filterMap Event.slot = [k] := by
      simp [readEvents, List.filterMap_cons, Event.slot, toNat_ofNat_of_slot hk]
    rw [frameEvents, List.reverse_append, List.filterMap_append, hround,
      ih (Nat.le_of_succ_le hk), List.range_succ]

theorem slots_pixframeEvents (s : State) (c : Word) :
    (pixframeEvents s c).reverse.filterMap Event.slot = List.range Config.frameLen := by
  have hslots := slots_frameEvents s le_rfl
  rw [List.filterMap_reverse] at hslots
  simp [pixframeEvents, writeEvents, List.filterMap_cons, hslots, Event.slot]

/-- Settles O58: the counts of a round, 225 times, and those of the accept step, the rewind and the response. -/
theorem pixframeCounts : Obligations.PixframeCounts := by
  intro s c rest hs hp hc hop
  have hcount {p : Event → Bool} {n m : Nat} := countP_pixframeEvents (p := p) (n := n) (m := m)
    { s with commands := rest } c
  have hnone {e : Event} (hround : ∀ a i x v, (Event.buf i v :: readEvents a x v).count e = 0)
      (hrest : ∀ a d x y, (Event.rsp .ok 0#16 :: (writeEvents a d x y ++ [Event.acc c])).count e = 0) :
      e ∉ pixframeEvents { s with commands := rest } c :=
    List.count_eq_zero.mp (hcount hround hrest)
  refine ⟨_, _, run_pixframe hs hp hc hop, (pixframeEvents_append { s with commands := rest } c).symm, ?_,
    hcount (n := 1) (m := 1) ?_ ?_, hcount (n := 1) (m := 1) ?_ ?_, hcount (n := 2) (m := 2) ?_ ?_,
    hcount (n := 2) (m := 0) ?_ ?_, hcount (n := 1) (m := 0) ?_ ?_, hcount (n := 0) (m := 0) ?_ ?_,
    fun m => hnone ?_ ?_, fun l => hnone ?_ ?_, fun d => hnone ?_ ?_, slots_pixframeEvents _ c⟩
  case refine_1 =>
    rw [← List.countP_true]
    exact hcount (n := 7) (m := 6) (fun _ _ _ _ => rfl) (fun _ _ _ _ => rfl)
  all_goals exact fun _ _ _ _ => rfl

/-! ### The transactions of a frame -/

variable {k n : Nat}

theorem frameTrace_succ (s : State) (c : Word) (k : Nat) :
    frameTrace s c (k + 1) = .buf (BitVec.ofNat 8 k) (frameByte s k) ::
      readEvents s.cfg.addrPixel (inputByte s (2 + 2 * k) (6 + 7 * k)) (frameByte s k) ++ frameTrace s c k := by
  simp only [frameTrace, frameEvents, List.cons_append, List.append_assoc]

/-- The transactions of the rewind and the first `k` rounds of a PIXFRAME accepted in state `s`, newest first (R142,
R143). -/
def frameTxns (s : State) : Nat → List Txn
  | 0 => [.write s.cfg.addrPixel Config.rewind]
  | k + 1 => .read s.cfg.addrPixel (frameByte s k) :: frameTxns s k

/-- A frame's events leave the bus between two brackets after every round, and finish one transaction a round. -/
theorem bus_frameTrace (hb : busPos s.trace = some .released) (c : Word) (k : Nat) :
    busPos (frameTrace s c k) = some .released ∧ txns (frameTrace s c k) = frameTxns s k ++ txns s.trace := by
  induction k with
  | zero =>
    simp [frameTrace, frameEvents, frameTxns, writeEvents, txns, busPos_cons, hb, Event.onBus, BusPos.move, BusPos.txn]
  | succ k ih =>
    obtain ⟨hpos, htxns⟩ := ih
    rw [frameTrace_succ]
    simp [frameTxns, readEvents, txns, busPos_cons, hpos, htxns, Event.onBus, BusPos.move, BusPos.txn]

theorem frameAnswered_trace (s : State) (c : Word) :
    (s.frameAnswered c).trace = .rsp .ok 0#16 :: frameTrace s c Config.frameLen := by
  rw [State.frameAnswered]

theorem txns_frameAnswered (hb : busPos s.trace = some .released) (c : Word) :
    txns (s.frameAnswered c).trace = frameTxns s Config.frameLen ++ txns s.trace := by
  obtain ⟨-, htxns⟩ := bus_frameTrace hb c Config.frameLen
  rw [frameAnswered_trace, ← htxns]
  exact if_neg nofun

/-! ### Under H_PIXEL -/

theorem pixelCursor_frameTxns (s : State) (ts : List Txn) (k : Nat) :
    pixelCursor s.cfg (frameTxns s k ++ ts) = some k := by
  induction k with
  | zero => simp [frameTxns, pixelCursor, Config.rewind]
  | succ k ih => simp [frameTxns, pixelCursor, ih]

theorem rewinds_frameTxns (s : State) (ts : List Txn) (k : Nat) :
    rewinds s.cfg (frameTxns s k ++ ts) = rewinds s.cfg ts + 1 := by
  induction k with
  | zero => simp [frameTxns, rewinds, Config.rewind, Nat.add_comm]
  | succ k ih => exact ih

/-- Under H_PIXEL the byte of read `k` is sample `k` of the frame that the rewind began (R50). -/
theorem frameByte_of_hPixel {frame : Nat → Nat → Byte} {ts : List Txn} (hn : n ≤ Config.frameLen)
    (h : HPixel s.cfg frame (frameTxns s n ++ ts)) (hk : k < n) :
    frameByte s k = frame (rewinds s.cfg ts + 1) k := by
  induction n with
  | zero => exact absurd hk k.not_lt_zero
  | succ n ih =>
    rw [frameTxns, List.cons_append, HPixel] at h
    obtain ⟨holder, hlaw⟩ := h
    rcases Nat.lt_succ_iff_lt_or_eq.mp hk with hlt | rfl
    · exact ih (Nat.le_of_succ_le hn) holder hlt
    · rw [hlaw rfl k (pixelCursor_frameTxns s ts k) hn, rewinds_frameTxns]

/-- After a frame's transactions, with the byte of read `k` in slot `k`, H_PIXEL gives the slots. -/
theorem readSlot_of_hPixel {frame : Nat → Nat → Byte}
    (htxns : txns t.trace = frameTxns s Config.frameLen ++ txns s.trace)
    (hread : ∀ k, k < Config.frameLen → readSlot t k = some (frameByte s k)) :
    HPixel s.cfg frame (txns t.trace) →
      ∀ k, k < Config.frameLen → readSlot t k = some (frame (rewinds s.cfg (txns s.trace) + 1) k) := by
  intro h k hk
  rw [hread k hk, frameByte_of_hPixel le_rfl (htxns ▸ h) hk]

/-- Settles O59: slot `k` holds the byte of read `k`, the run's own transaction, which H_PIXEL gives. -/
theorem pixframeFillsTheBufferWithTheFrame : Obligations.PixframeFillsTheBufferWithTheFrame := by
  intro s c rest frame hreach hs hp hc hop
  have htxns := txns_frameAnswered (s := { s with commands := rest }) (hreach.busPos_of_idle hp hs) c
  have hread (k : Nat) := readSlot_frameAnswered_of_lt (k := k) { s with commands := rest } c
  exact ⟨_, run_pixframe hs hp hc hop, rfl, rfl, readSlot_of_hPixel htxns hread⟩

/-! ### With the pixel harness -/

theorem harnessCursor_frameTxns (s : State) (ts : List Txn) (k : Nat) :
    harnessCursor s.cfg (frameTxns s k ++ ts) = k := by
  induction k with
  | zero => simp [frameTxns, harnessCursor, Config.rewind]
  | succ k ih => simp [frameTxns, harnessCursor, ih]

/-- The events so far when the value exchange of the round of slot `k` comes, newest first. -/
def valueTrace (s : State) (c : Word) (k : Nat) : List Event :=
  .dir .mosi .input :: .xfer s.cfg.addrPixel (inputByte s (2 + 2 * k) (6 + 7 * k)) :: .lvl .ncs .low ::
    frameTrace s c k

/-- The pixel harness answers that exchange with byte `k` of its list (R55). -/
theorem pixelReply_valueTrace (hb : busPos s.trace = some .released) (pix : List Byte) (c : Word) (k : Nat) :
    pixelReply s.cfg pix (valueTrace s c k) = pix.getD k 0xFF#8 := by
  obtain ⟨hpos, htxns⟩ := bus_frameTrace hb c k
  simp [pixelReply, valueTrace, busPos_cons, hpos, Event.onBus, BusPos.move, txns, htxns, harnessCursor_frameTxns]

theorem frameTrace_suffix (s : State) (c : Word) (h : k ≤ n) : frameTrace s c k <:+ frameTrace s c n := by
  induction n, h using Nat.le_induction with
  | base => exact List.suffix_rfl
  | succ n _ ih =>
    rw [frameTrace_succ]
    exact ih.trans (List.suffix_append _ _)

theorem trace_suffix_valueTrace (s : State) (c : Word) (k : Nat) : s.trace <:+ valueTrace s c k := by
  have hframe : s.trace <:+ frameTrace s c k :=
    ((List.suffix_cons _ _).trans (List.suffix_append _ _)).trans (List.suffix_append _ _)
  exact hframe.trans ⟨[_, _, _], rfl⟩

/-- The value exchange of a round follows the events before it. -/
theorem valueExchange_suffix (s : State) (c : Word) (h : k < n) :
    .xfer Config.filler (frameByte s k) :: valueTrace s c k <:+ frameTrace s c n := by
  refine .trans ?_ (frameTrace_suffix s c h)
  rw [frameTrace_succ]
  exact ⟨[_, _, _], rfl⟩

/-- In a run with a sensor an exchange returned the reply to the events before it, those before the run among them. -/
theorem eq_reply_of_suffix {reply : List Event → Byte} {m : Nat} {o i : Byte} {older : List Event}
    (h : runWith reply m s = .next t) (hs : s.trace <:+ older) (ht : .xfer o i :: older <:+ t.trace) :
    i = reply older := by
  obtain ⟨between, rfl⟩ := hs
  obtain ⟨newer, hnewer⟩ := ht
  have htrace : t.trace = (newer ++ .xfer o i :: between) ++ s.trace := by
    rw [← hnewer, List.append_assoc, List.cons_append]
  exact eq_reply_of_runWith h htrace

/-- Settles O60: the run with the harness is a run of PIXFRAME, whose value bytes are the harness's replies. -/
theorem pixelHarnessFillsTheBuffer : Obligations.PixelHarnessFillsTheBuffer := by
  intro s c rest pix hreach hs hp hc hop hlen
  have hsame : SameButBytes s s := rfl
  obtain ⟨t, ht⟩ := exists_runWith_of_run (reply := pixelReply s.cfg pix) hsame (run_pixframe hs hp hc hop)
  obtain ⟨l, hl⟩ := exists_run_of_runWith ht
  have hend := Host.Outcome.next.inj (hl.symm.trans (run_pixframe (s := { s with xferIn := l }) hs hp hc hop))
  refine ⟨t, ht, congrArg State.phase hend, fun k hk => ?_⟩
  have htrace := congrArg State.trace hend
  have hbyte : frameByte { s with xferIn := l, commands := rest } k = pix.getD k 0xFF#8 := by
    have hvalue := valueExchange_suffix { s with xferIn := l, commands := rest } c hk
    rw [eq_reply_of_suffix ht (trace_suffix_valueTrace { s with xferIn := l, commands := rest } c k)
      (hvalue.trans ⟨[_], htrace.symm⟩)]
    exact pixelReply_valueTrace (s := { s with xferIn := l, commands := rest }) (hreach.busPos_of_idle hp hs) pix c k
  have hread : readSlot t k = some (frameByte { s with xferIn := l, commands := rest } k) := by
    rw [show readSlot t k = readSlot { t with xferIn := [] } k from rfl, hend, readSlot_frameAnswered_of_lt _ c hk]
  rw [hread, hbyte]
  simp [hlen, hk]

end Sys2Proof.Machine
end

section
/-! PROOFS. The obligations on the checks and refusals (60_exceptions.md): every word and every command that fails a
check takes the one refusal (R164). -/

namespace Sys2Proof.Machine

variable {s : State} {c : Word} {rest : List Word} {e : CmdError}

/-- In IDLE a word that fails a check takes the refusal, whether or not it decodes (R163, R164). -/
theorem step_of_refused_word (hp : s.phase = .idle) (hc : s.commands = c :: rest)
    (he : firstErrorOfWord c s.session = some e) :
    step s = .next (raise e c (acceptWord c { s with commands := rest })) := by
  cases hd : decode c with
  | ok i => exact step_of_refused hp hc hd (firstErrorOfWord_of_decode hd s.session ▸ he)
  | error d =>
    have hillegal : e = .illegalOp := Option.some.inj (he.symm.trans (firstErrorOfWord_of_decode_error hd s.session))
    rw [step_of_decode_error hp hc hd, acceptReserved, hillegal]

/-- Settles O19: the refusal of the word, and the response to a refusal. -/
theorem refusedWordsTakeTheRefusal : Obligations.RefusedWordsTakeTheRefusal := by
  intro s c rest e hp hc he
  have hstep := step_of_refused_word hp hc he
  refine ⟨hstep, ?_⟩
  rw [run_succ 1 hstep, run_succ 0 (step_raise _ _ _), run_zero]
  rfl

/-- Settles O20: a command's word decodes to it, so the check that fails on the word's bits fails on the command. -/
theorem execOfARefusedCommandTakesTheRefusal : Obligations.ExecOfARefusedCommandTakesTheRefusal := by
  intro i s e he
  rw [firstErrorOfWord_of_decode (decode_encode i)] at he
  rw [exec_of_refused he, acceptWord, opField_encode]
  rfl

end Sys2Proof.Machine
end

section
/-! PROOFS. The obligations on reset and hazards (70_reset_and_hazards.md). -/

namespace Sys2Proof.Machine

variable {s s' t : State}

/-- Settles O1: each element is read off the state that reset is. -/
theorem resetLeavesOnlySessionAndPhase : Obligations.ResetLeavesOnlySessionAndPhase :=
  ⟨rfl, rfl, rfl, rfl, rfl, rfl, rfl, rfl, rfl, rfl, rfl, rfl, rfl, rfl, rfl, rfl, rfl⟩

/-! ### No value is taken away -/

/-- An accepted command's action writes the session, the phase, `areg` and `dreg`, and no other element (R26). -/
theorem acceptAction_elements (i : Instr) (u : State) :
    acceptAction i u =
      { u with
        session := (acceptAction i u).session, phase := (acceptAction i u).phase
        areg := (acceptAction i u).areg, dreg := (acceptAction i u).dreg } := by
  cases i <;> rfl

/-- The selector of a command that passes its checks has an address, so its action leaves `areg` with a value. -/
theorem isSome_areg_acceptAction {i : Instr} {u : State} (hn : firstError i u.session = none) (h : u.areg.isSome) :
    (acceptAction i u).areg.isSome := by
  cases i with
  | wrreg z sel d | rdreg z sel d =>
    obtain ⟨hres, -⟩ := firstError_eq_none.mp hn
    exact isSome_addr_of_not_isReserved hres _
  | construct _ | reset _ | isatt _ => exact h
  | _ => rfl

theorem isSome_dreg_acceptAction {i : Instr} {u : State} (h : u.dreg.isSome) : (acceptAction i u).dreg.isSome := by
  cases i with
  | wrreg _ _ _ | pixframe _ => rfl
  | _ => exact h

/-- Settles O52: an accepted command leaves a session that is not Uninitialized, and its selector has an address; every
other step writes an element with a value or not at all, and the session only as Ready. -/
theorem noStepReturnsToTheResetState : Obligations.NoStepReturnsToTheResetState := by
  intro s t h
  apply step_rec (h := h)
  case accepted =>
    intro s c rest i _ _ _ hn
    refine ⟨fun ht => absurd ht (acceptAction_session_ne_uninitialized hn), ?_,
      fun hd => isSome_dreg_acceptAction hd, ?_, ?_, ?_, ?_, ?_, ?_, ?_, ?_, ?_, ?_, ?_,
      fun ha => isSome_areg_acceptAction hn ha⟩
    all_goals
      rw [acceptAction_elements]
      simp
  all_goals
    intros
    simp [acceptReserved, stepCon1, stepCon2, stepCon3, stepCon4, stepCon5, stepCon6, stepCon7, stepCon8, stepCon9,
      stepRst1, stepRst2, stepRst3, stepRst4, stepWr1, stepWr2, stepWr3, stepRd1, stepRd2, stepRd3, stepRd4, stepRd5]

/-! ### What is read, and what never is -/

/-- The state `s` with the levels, the directions and the clock mode of `u`. -/
def State.withPinsOf (s u : State) : State :=
  { s with
    ncs := u.ncs, nreset := u.nreset, dirNreset := u.dirNreset, dirNcs := u.dirNcs, dirMosi := u.dirMosi
    dirMiso := u.dirMiso, clkmode := u.clkmode }

theorem sameButPins_iff : SameButPins s s' ↔ s' = s.withPinsOf s' := Iff.rfl

/-- An accepted command's action looks at no level, direction or clock mode. -/
theorem sameButPins_acceptAction (i : Instr) (s u : State) :
    SameButPins (acceptAction i s) (acceptAction i (s.withPinsOf u)) := by
  cases i <;> rfl

/-- With other levels, directions and clock mode in the state a step answers too, and does the same: no branch and no
other element of the next state reads them (R182). -/
theorem step_withPinsOf (u : State) (h : step s = .next t) :
    ∃ t', step (s.withPinsOf u) = .next t' ∧ SameButPins t t' := by
  apply step_rec (h := h) (P := fun s t => ∃ t', step (s.withPinsOf u) = .next t' ∧ SameButPins t t')
  case reserved => exact fun s c rest e hp hc hd => ⟨_, step_of_decode_error (s := s.withPinsOf u) hp hc hd, rfl⟩
  case refused =>
    intro s c rest i e hp hc hd he
    rw [encode_of_decode hd]
    exact ⟨_, step_of_refused (s := s.withPinsOf u) hp hc hd he, rfl⟩
  case accepted =>
    intro s c rest i hp hc hd hn
    rw [encode_of_decode hd]
    exact ⟨_, step_of_accepted (s := s.withPinsOf u) hp hc hd hn, sameButPins_acceptAction i _ u⟩
  case wr4_frame => exact fun s hp ho => ⟨_, step_wr4_of_frame (s := s.withPinsOf u) hp ho, rfl⟩
  case wr4 => exact fun s hp ho => ⟨_, step_wr4_of_ne (s := s.withPinsOf u) hp ho, rfl⟩
  case rd6_frame => exact fun s hp ho => ⟨_, step_rd6_of_frame (s := s.withPinsOf u) hp ho, rfl⟩
  case rd6 => exact fun s hp ho => ⟨_, step_rd6_of_ne (s := s.withPinsOf u) hp ho, rfl⟩
  case pfs => exact fun s hp hi => ⟨_, step_pfs_of_lt (s := s.withPinsOf u) hp hi, rfl⟩
  case pfs_last => exact fun s hp hi => ⟨_, step_pfs_of_last (s := s.withPinsOf u) hp hi, rfl⟩
  all_goals
    intro s hp
    refine ⟨_, by simp only [step, State.withPinsOf, hp]; rfl, ?_⟩
    rfl

/-- Settles O53: the invariant has a value in every element that the phase reads, and no step reads what was last
driven. -/
theorem elementsAreWrittenBeforeTheyAreRead : Obligations.ElementsAreWrittenBeforeTheyAreRead := by
  refine ⟨fun s hs => ?_, fun s s' t hs h => ?_⟩
  · have hl := hs.inv.latch
    refine ⟨fun hp => hl.opBusy ?_, hl.response, fun hp => hl.areg ?_, fun hp => hl.dreg ?_,
      fun hp => hl.rx (.inr hp), fun hp => ?_⟩
    · rcases hp with hp | hp <;> rw [hp] <;> nofun
    · rcases hp with hp | hp <;> rw [hp] <;> rfl
    · rw [hp]
      rfl
    · obtain ⟨i, hi, -⟩ := hs.inv.idx_of_frame (hl.opPfs hp) (.inr hp)
      rw [hi]
      rfl
  · rw [sameButPins_iff.mp hs]
    exact step_withPinsOf s' h

/-! ### The waits -/

/-- Where the sequencer waits, and for how long: the startup delay at CON8, the settling delay at RST2 and RST4. -/
def waitTime (s : State) : Option Nat :=
  match s.phase with
  | .con8 => some s.cfg.tStartupMs
  | .rst2 | .rst4 => some s.cfg.tSettleMs
  | _ => none

theorem waitTime_eq_some_iff {n : Nat} : waitTime s = some n ↔
    s.phase = .con8 ∧ n = s.cfg.tStartupMs ∨ (s.phase = .rst2 ∨ s.phase = .rst4) ∧ n = s.cfg.tSettleMs := by
  cases hp : s.phase <;> simp [waitTime, hp, eq_comm]

/-- A step makes a `Sleep` event exactly where the sequencer waits, and for that time (R122, R127). -/
theorem step_sleeps_iff (n : Nat) (h : step s = .next t) : t.trace = .sleep n :: s.trace ↔ waitTime s = some n := by
  apply step_rec (h := h) (P := fun s t => t.trace = .sleep n :: s.trace ↔ waitTime s = some n)
  case accepted =>
    intro s c rest i hp hc hd _
    rw [encode_of_decode hd, (accepted_makes hc i).trace]
    simp [waitTime, hp]
  case con8 | rst2 | rst4 =>
    intro s hp
    simp [stepCon8, stepRst2, stepRst4, waitTime, hp]
  all_goals
    intro s
    intros
    have hw : waitTime s = none := by simp only [waitTime, ‹s.phase = _›]
    rw [hw]
    exact iff_of_false (fun htr => by cases htr) nofun

/-- Settles O54: the wait of the phase, and its time. -/
theorem sleepOnlyAtTheThreeWaits : Obligations.SleepOnlyAtTheThreeWaits :=
  fun _ _ n h => (step_sleeps_iff n h).trans waitTime_eq_some_iff

end Sys2Proof.Machine
end

section
/-! PROOFS. The obligations on the invariants (10_state.md section 4): they hold at power-on, every step keeps them, and so
they hold in every reachable state. -/

namespace Sys2Proof.Machine

variable {s : State}

/-- Settles O4: a step keeps each of the four parts of `Inv`, and the part on the pins rests on the session's. -/
theorem stepKeepsTheStateInvariant : Obligations.StepKeepsTheStateInvariant :=
  fun _ _ => step_keeps_inv

/-- At power-on no event has been made and the sequencer is not busy, so no command is open. -/
theorem PowerOn.portInv (h : PowerOn s) : PortInv s := by
  rw [PortInv, busy, h.trace, h.phase]
  rfl

theorem Reachable.portInv (h : Reachable s) : PortInv s :=
  h.induct (fun _ => PowerOn.portInv) fun _ _ => step_keeps_portInv

/-- Settles O3: without a session, a latch, a driven pin or an event, each invariant is about the canonical buffer or
about the untouched bus. -/
theorem powerOnMeetsTheInvariants : Obligations.PowerOnMeetsTheInvariants :=
  fun _ h => ⟨h.inv, h.busInv, h.portInv, h.untouchedInv⟩

/-- Settles O8: each invariant holds at power-on and every step keeps it, the bus grammar and the untouched pins
together with `Inv`. -/
theorem reachableStatesMeetTheInvariants : Obligations.ReachableStatesMeetTheInvariants :=
  fun _ h => ⟨h.inv, h.busInv, h.portInv, h.untouchedInv⟩

/-- Reset gives every element the value of R180, and its buffer without a slot is canonical. -/
theorem powerOn_reset : PowerOn State.reset := by
  constructor <;> rfl

/-- Settles O2: reset is a power-on state, and every power-on state meets the invariants (O3). -/
theorem resetMeetsTheInvariants : Obligations.ResetMeetsTheInvariants :=
  ⟨powerOn_reset, powerOnMeetsTheInvariants _ powerOn_reset⟩

end Sys2Proof.Machine
end
